-- ==== Sys2Proof/Word.lean ====
section
/-! DEFINITION. The word type of the CRYP block and the byte of a bus lane (spec/00_scope.md R10). -/

namespace Sys2Proof

/-- A word is 32 bits; bit 31 is the most significant and bit 0 the least (R10). -/
abbrev Word := BitVec 32

/-- One byte lane of a byte-addressed bus (R103). -/
abbrev Byte := BitVec 8

end Sys2Proof
end

