-- ==== Sys2Proof/Syntax.lean ====
section
/-! DEFINITION. The syntax of the CRYP block: the configuration vocabulary of spec/10_state.md R67 and R68, and the
one inductive of instructions, one constructor for each row of spec/opcode_table.json (the register transactions of
format BUS, the controller operations of format OP, the bus-error rows and the reserved operation codes). -/

namespace Sys2Proof

/-- The ten modes of R2, R68 and R143. -/
inductive Mode where
  | tdesEcb | tdesCbc | desEcb | desCbc
  | aesEcb | aesCbc | aesCtr | aesKeyPrep | aesGcm | aesCcm
deriving DecidableEq, Repr, Inhabited

/-- The data-unit widths of R2 and R144. -/
inductive DataWidth where
  | w32 | w16 | w8 | w1
deriving DecidableEq, Repr, Inhabited

/-- The AES key sizes of R2 and R145. -/
inductive KeySize where
  | k128 | k192 | k256
deriving DecidableEq, Repr, Inhabited

/-- The direction of R2 and R147. -/
inductive Dir where
  | enc | dec
deriving DecidableEq, Repr, Inhabited

/-- The AEAD phases, in their order (R68, R146). -/
inductive Phase where
  | init | header | payload | final
deriving DecidableEq, Repr, Inhabited

/-- EngineConfig of R68; `keySize` is present iff the mode is AES-family (checked in WellFormed.lean). -/
structure EngineConfig where
  mode : Mode
  width : DataWidth
  keySize : Option KeySize
  dir : Dir
deriving DecidableEq, Repr, Inhabited

/-- One 64-bit pair, left (high-order) half first: a key quadrant pair or an IV pair (R53, R55). -/
abbrev WordPair := Word × Word

/-- IVMaterial: the two 64-bit pairs IV0 and IV1 (R55, R155). -/
structure IVMaterial where
  iv0 : WordPair
  iv1 : WordPair
deriving DecidableEq, Repr, Inhabited

/-- The GCM/CCM context words of a snapshot: CSW[0..7], then CSF[0..7] (R67). -/
structure ContextWords where
  working : Vector Word 8
  final : Vector Word 8
deriving DecidableEq, Repr, Inhabited

/-- ContextSnapshot of R67. It holds no key material. -/
structure ContextSnapshot where
  id : Nat
  cfgBits : Word
  iv : Vector Word 4
  ctx : Option ContextWords
deriving DecidableEq, Repr, Inhabited

/-- The W bit of a transaction selector together with DATA, which a read does not have (R140). -/
inductive Access where
  | read
  | write (data : Word)
deriving DecidableEq, Repr, Inhabited

/-- One constructor for each row of spec/opcode_table.json. A BUS row carries WIDTH, the access size in bytes
(R140); a write row carries DATA; an index field is the row's own. An OP row carries the argument record of R155;
`restore` of `none` is a restore of what is no ContextSnapshot, such as a partial one (R460, U4). -/
inductive Instr where
  -- format BUS: control, status and data ports (R200 to R207)
  | rCr (width : Nat)
  | wCr (width : Nat) (v : Word)
  | rSr (width : Nat)
  | wSr (width : Nat) (v : Word)
  | rDin (width : Nat)
  | wDin (width : Nat) (w : Word)
  | rDout (width : Nat)
  | wDout (width : Nat) (v : Word)
  -- format BUS: DMA and interrupt registers (R208 to R215)
  | rDmacr (width : Nat)
  | wDmacr (width : Nat) (v : Word)
  | rImscr (width : Nat)
  | wImscr (width : Nat) (v : Word)
  | rRisr (width : Nat)
  | wRisr (width : Nat) (v : Word)
  | rMisr (width : Nat)
  | wMisr (width : Nat) (v : Word)
  -- format BUS: key, IV and context registers (R216 to R223)
  | rKey (width : Nat) (k : Fin 8)
  | wKey (width : Nat) (k : Fin 8) (v : Word)
  | rIv (width : Nat) (v : Fin 4)
  | wIv (width : Nat) (v : Fin 4) (x : Word)
  | rCswLo (width : Nat) (x : Fin 4)
  | wCswLo (width : Nat) (x : Fin 4) (y : Word)
  | rCswHi (width : Nat) (x : Fin 4)
  | wCswHi (width : Nat) (x : Fin 4) (y : Word)
  | rCsfLo (width : Nat) (x : Fin 4)
  | wCsfLo (width : Nat) (x : Fin 4) (y : Word)
  | rCsfHi (width : Nat) (x : Fin 4)
  | wCsfHi (width : Nat) (x : Fin 4) (y : Word)
  -- format BUS: bus errors (R224); `o` is the offset bits the row does not test
  | busErrUnmapped90 (width : Nat) (a : Access) (o : BitVec 2)
  | busErrUnmappedA0 (width : Nat) (a : Access) (o : BitVec 3)
  | busErrUnmappedC0 (width : Nat) (a : Access) (o : BitVec 4)
  | busErrMisalignedOdd (width : Nat) (a : Access) (o : BitVec 7)
  | busErrMisalignedEven (width : Nat) (a : Access) (o : BitVec 6)
  -- format OP: the controller operations 0 to 19 (R155)
  | configure (cfg : EngineConfig)
  | loadKey (key : List WordPair)
  | loadIV (iv : IVMaterial)
  | flushFIFOs
  | enable
  | disable
  | isBusy
  | pushWord (w : Word)
  | popWord
  | inputNotFull
  | inputEmpty
  | outputNotEmpty
  | outputFull
  | setPhase (p : Phase)
  | save
  | restore (snap : Option ContextSnapshot) (key : List WordPair)
  | setInputDMA (b : Bool)
  | setOutputDMA (b : Bool)
  | setInterruptMask (inp : Bool) (out : Bool)
  | readInterruptStatus
  -- format OP: the reserved codes 20 to 23 and 24 to 31 (R148 (d)); `r` is the code bits the row does not test
  | opReserved20 (r : BitVec 2)
  | opReserved24 (r : BitVec 3)
deriving DecidableEq, Repr

end Sys2Proof
end

