-- ==== Sys2Proof/Config.lean ====
section
/-! DEFINITION. What an implementation fixes and the free values: the parameters of spec/00_scope.md R5 as plain data
(they stand in State, so that a statement about every state holds for every parameter value), the opaque cipher core
of R6 and R283, and the fresh values of `draw()` (R13). -/

namespace Sys2Proof.Config

/-- FINAL_IN_WORDS of one AEAD mode: 0 or 4 words, one block (R5, D9). -/
inductive FinalInput where
  | noWords
  | oneBlock
deriving DecidableEq, Repr, Inhabited

/-- FINAL_IN_WORDS as a number of words (R5). -/
def FinalInput.words : FinalInput → Nat
  | .noWords => 0
  | .oneBlock => 4

/-- The model parameters of R5. `crypPage` is CRYP_BASE without its low eight bits, which are zero because the window
is 256-byte aligned; that a bus address has 32 bits, so that 24 are left, is the model's (DESIGN CHOICE, log entry 22:
D6 gives no width). The DMA source stream is a field of State, since DMA-in consumes it. -/
structure Params where
  crypPage : BitVec 24
  inDepth : Nat
  outDepth : Nat
  drainBudget : Nat
  finalGcm : FinalInput
  finalCcm : FinalInput
deriving DecidableEq, Repr, Inhabited

/-- The constraints R5 puts on the parameters. -/
abbrev Params.ok (p : Params) : Prop :=
  4 ≤ p.inDepth ∧ 4 ≤ p.outDepth ∧ 1 ≤ p.drainBudget

/-- The reference values of R5 (CRYP_BASE 0x50060000, depths 8, FINAL_IN_WORDS 4). R5 gives DRAIN_BUDGET none; 4 is
the value of spec/95_test_vectors.md section 0. DESIGN CHOICE, unsafe: log entries 1 and 2. -/
def Params.reference : Params :=
  { crypPage := 0x500600, inDepth := 8, outDepth := 8, drainBudget := 4, finalGcm := .oneBlock, finalCcm := .oneBlock }

/-- What CipherBlock and TagPass return: up to four output words and the new IV, CSW and CSF (R283). -/
structure CoreOut where
  out : Vector Word 4
  iv : Vector Word 4
  csw : Vector Word 8
  csf : Vector Word 8
deriving DecidableEq, Repr, Inhabited

/-- What InitPass returns: the new IV, CSW and CSF (R283). -/
structure InitOut where
  iv : Vector Word 4
  csw : Vector Word 8
  csf : Vector Word 8
deriving DecidableEq, Repr, Inhabited

/-- The arguments of CipherBlock (R283): mode, direction, key size, K, IV, phase, CSW, CSF and the input words. -/
structure BlockArgs where
  mode : Mode
  dir : Dir
  keySize : Option KeySize
  key : Vector Word 8
  iv : Vector Word 4
  phase : Phase
  csw : Vector Word 8
  csf : Vector Word 8
  din : List Word
deriving DecidableEq, Repr

/-- The arguments of InitPass (R283): mode, key size, K and IV. -/
structure InitArgs where
  mode : Mode
  keySize : Option KeySize
  key : Vector Word 8
  iv : Vector Word 4
deriving DecidableEq, Repr

/-- The arguments of TagPass (R283): mode, direction, key size, K, IV, CSW, CSF and the input words. -/
structure TagArgs where
  mode : Mode
  dir : Dir
  keySize : Option KeySize
  key : Vector Word 8
  iv : Vector Word 4
  csw : Vector Word 8
  csf : Vector Word 8
  din : List Word
deriving DecidableEq, Repr

/-- The DES/AES transform of a data block, a free function of its arguments (R6, R283). Laws (a), (c) and (d) of R283
are imposed where the engine calls it (Machine/Engine.lean); law (b) holds because it is a function. Log entry 6. -/
opaque cipherBlock : BlockArgs → CoreOut

/-- The AEAD init transform, a free function of its arguments (R6, R283). -/
opaque initPass : InitArgs → InitOut

/-- The AEAD tag transform, a free function of its arguments (R6, R283). -/
opaque tagPass : TagArgs → CoreOut

/-- The n-th value of `draw()`: a fresh word under no law (R13). Nothing can be proved of it. Log entry 5. -/
opaque draw : Nat → Word

end Sys2Proof.Config
end

