-- ==== Sys2Proof/Machine/Fields.lean ====
section
/-! DEFINITION. The fields of the control word CR and of the other stored registers: masks, field extraction, the
codes of spec/30_encoding.md R143 to R147, the translation function `encode(cfg)` of R152 and its inverse (R153), and
the dispatcher tables of R149 to R151. -/

namespace Sys2Proof

/-! ### Masks of R32, R49 and R50 -/

/-- ALGODIR, ALGOMODE, DATATYPE and KEYSIZE (R32). -/
def cfgMask : Word := 0x000803FC
/-- GCM_CCMPH (R32). -/
def phMask : Word := 0x00030000
/-- The write-1 action bit FFLUSH (R36). -/
def fflushMask : Word := 0x00004000
/-- CRYPEN (R37). -/
def crypenMask : Word := 0x00008000
/-- Every writable bit of CR (R32). -/
def crWmask : Word := 0x000BC3FC
/-- `CFG_MASK | PH_MASK`: what a snapshot keeps of CR (R32, R67). -/
def snapMask : Word := 0x000B03FC
/-- DMACR.DIEN (R49). -/
def dienMask : Word := 0x00000001
/-- DMACR.DOEN (R49). -/
def doenMask : Word := 0x00000002
/-- The writable bits of DMACR and of IMSCR (R49, R50). -/
def lowTwoMask : Word := 0x00000003

/-! ### Mode families (R68) -/

/-- `AESfam(m)` of R68. -/
def Mode.isAes : Mode → Bool
  | .tdesEcb | .tdesCbc | .desEcb | .desCbc => false
  | .aesEcb | .aesCbc | .aesCtr | .aesKeyPrep | .aesGcm | .aesCcm => true

/-- `AEAD(m)` of R68. -/
def Mode.isAead : Mode → Bool
  | .aesGcm | .aesCcm => true
  | .tdesEcb | .tdesCbc | .desEcb | .desCbc | .aesEcb | .aesCbc | .aesCtr | .aesKeyPrep => false

/-- The ECB modes, whose passes leave IV alone (R288). -/
def Mode.isEcb : Mode → Bool
  | .tdesEcb | .desEcb | .aesEcb => true
  | .tdesCbc | .desCbc | .aesCbc | .aesCtr | .aesKeyPrep | .aesGcm | .aesCcm => false

/-- The modes whose decryption needs a key preparation pass: AES-ECB and AES-CBC (R149, R272). -/
def Mode.prepBeforeDec : Mode → Bool
  | .aesEcb | .aesCbc => true
  | .tdesEcb | .tdesCbc | .desEcb | .desCbc | .aesCtr | .aesKeyPrep | .aesGcm | .aesCcm => false

/-! ### Field codes -/

/-- The 4-bit mode code (R143). -/
def Mode.code : Mode → BitVec 4
  | .tdesEcb => 0b0000
  | .tdesCbc => 0b0001
  | .desEcb => 0b0010
  | .desCbc => 0b0011
  | .aesEcb => 0b0100
  | .aesCbc => 0b0101
  | .aesCtr => 0b0110
  | .aesKeyPrep => 0b0111
  | .aesGcm => 0b1000
  | .aesCcm => 0b1001

/-- The mode a code names; the codes 0b1010 to 0b1111 are reserved (R143). -/
def Mode.ofCode (c : BitVec 4) : Option Mode :=
  match c.toNat with
  | 0 => some .tdesEcb
  | 1 => some .tdesCbc
  | 2 => some .desEcb
  | 3 => some .desCbc
  | 4 => some .aesEcb
  | 5 => some .aesCbc
  | 6 => some .aesCtr
  | 7 => some .aesKeyPrep
  | 8 => some .aesGcm
  | 9 => some .aesCcm
  | _ => none

/-- The DATATYPE code (R144). -/
def DataWidth.code : DataWidth → BitVec 2
  | .w32 => 0b00
  | .w16 => 0b01
  | .w8 => 0b10
  | .w1 => 0b11

/-- The width a DATATYPE code names; all four are assigned (R144). -/
def DataWidth.ofCode (c : BitVec 2) : DataWidth :=
  match c.toNat with
  | 0 => .w32
  | 1 => .w16
  | 2 => .w8
  | _ => .w1

/-- The KEYSIZE code (R145). -/
def KeySize.code : KeySize → BitVec 2
  | .k128 => 0b00
  | .k192 => 0b01
  | .k256 => 0b10

/-- The key size a KEYSIZE code names; 0b11 is reserved (R145). -/
def KeySize.ofCode (c : BitVec 2) : Option KeySize :=
  match c.toNat with
  | 0 => some .k128
  | 1 => some .k192
  | 2 => some .k256
  | _ => none

/-- The GCM_CCMPH code (R146). -/
def Phase.code : Phase → BitVec 2
  | .init => 0b00
  | .header => 0b01
  | .payload => 0b10
  | .final => 0b11

/-- The phase a GCM_CCMPH code names; all four are assigned (R146). -/
def Phase.ofCode (c : BitVec 2) : Phase :=
  match c.toNat with
  | 0 => .init
  | 1 => .header
  | 2 => .payload
  | _ => .final

/-- The ALGODIR code (R147). -/
def Dir.code : Dir → BitVec 1
  | .enc => 0
  | .dec => 1

/-- The direction an ALGODIR bit names (R147). -/
def Dir.ofBit : Bool → Dir
  | false => .enc
  | true => .dec

/-! ### Fields of a CR word (R32) -/

/-- `mode(cr) = cr[19] ++ cr[5:3]`, the raw code (R33). -/
def modeField (cr : Word) : BitVec 4 := cr.extractLsb' 19 1 ++ cr.extractLsb' 3 3

/-- The mode CR selects, if its code is assigned (R33, R143). -/
def crMode (cr : Word) : Option Mode := Mode.ofCode (modeField cr)

/-- ALGODIR (R32). -/
def crDir (cr : Word) : Dir := Dir.ofBit (cr.getLsbD 2)

/-- DATATYPE (R34). -/
def crWidth (cr : Word) : DataWidth := DataWidth.ofCode (cr.extractLsb' 6 2)

/-- KEYSIZE, the raw field `cr[9:8]` (R35). -/
def ksField (cr : Word) : BitVec 2 := cr.extractLsb' 8 2

/-- GCM_CCMPH, the raw field `cr[17:16]` (R38). -/
def phaseField (cr : Word) : BitVec 2 := cr.extractLsb' 16 2

/-- `phaseOf(bits)` (R153). -/
def phaseOf (cr : Word) : Phase := Phase.ofCode (phaseField cr)

/-- CRYPEN (R37). -/
def crypen (cr : Word) : Bool := cr.getLsbD 15

/-- `ksz(cr)`: the key size for an AES-family mode, absent otherwise (R273). -/
def kszOf (m : Mode) (cr : Word) : Option KeySize :=
  if m.isAes then KeySize.ofCode (ksField cr) else none

/-- A CR value that names nothing: a reserved mode code, or KEYSIZE = 0b11 with an AES-family mode (R148 (a)). -/
def reservedConfig (cr : Word) : Bool :=
  match crMode cr with
  | none => true
  | some m => m.isAes && ksField cr == 0b11

/-- DMACR.DIEN (R49). -/
def dien (dmacr : Word) : Bool := dmacr.getLsbD 0

/-- DMACR.DOEN (R49). -/
def doen (dmacr : Word) : Bool := dmacr.getLsbD 1

/-! ### The translation function and its inverse -/

/-- `ks(cfg)`: the KEYSIZE code of an AES-family configuration, 0b00 otherwise (R152). -/
def ksCode (cfg : EngineConfig) : BitVec 2 :=
  if cfg.mode.isAes then (cfg.keySize.map KeySize.code).getD 0b00 else 0b00

/-- `encode(cfg)` of R152: phase Init, CRYPEN and FFLUSH 0. -/
def encodeConfig (cfg : EngineConfig) : Word :=
  ((cfg.mode.code.extractLsb' 3 1).setWidth 32 <<< 19)
    ||| ((cfg.mode.code.extractLsb' 0 3).setWidth 32 <<< 3)
    ||| (cfg.width.code.setWidth 32 <<< 6)
    ||| ((ksCode cfg).setWidth 32 <<< 8)
    ||| (cfg.dir.code.setWidth 32 <<< 2)

/-- `decode(bits)` of R153: the configuration whose encoding agrees with the word on CFG_MASK, with KEYSIZE dropped for
a DES-family mode; none where the mode code or an AES key size is reserved. -/
def decodeConfig (bits : Word) : Option EngineConfig :=
  match crMode bits with
  | none => none
  | some m =>
    if m.isAes then
      match KeySize.ofCode (ksField bits) with
      | none => none
      | some k => some { mode := m, width := crWidth bits, keySize := some k, dir := crDir bits }
    else some { mode := m, width := crWidth bits, keySize := none, dir := crDir bits }

/-- `needsKeyPrep(cfg)` (R154). -/
def needsKeyPrep (cfg : EngineConfig) : Bool :=
  cfg.mode.prepBeforeDec && cfg.dir == .dec

/-! ### Dispatcher tables -/

/-- The first key slot and the number of key pairs of a configuration (R150): slot q is K[2q] and K[2q+1]. -/
def keySpan (m : Mode) (ks : Option KeySize) : Nat × Nat :=
  match m with
  | .desEcb | .desCbc => (1, 1)
  | .tdesEcb | .tdesCbc => (1, 3)
  | .aesEcb | .aesCbc | .aesCtr | .aesKeyPrep | .aesGcm | .aesCcm =>
    match ks with
    | some .k256 => (0, 4)
    | some .k192 => (1, 3)
    | some .k128 => (2, 2)
    | none => (2, 2)

/-- `keyPairs(cfg)` (R150). -/
def keyPairs (cfg : EngineConfig) : Nat := (keySpan cfg.mode cfg.keySize).2

/-- `keySlot(cfg, j) = firstSlot(cfg) + j` (R150). -/
def keySlot (cfg : EngineConfig) (j : Nat) : Nat := (keySpan cfg.mode cfg.keySize).1 + j

/-- Whether the configuration uses key register K[i] (R150). -/
def keyUsed (m : Mode) (ks : Option KeySize) (i : Nat) : Bool :=
  2 * (keySpan m ks).1 ≤ i && i < 2 * ((keySpan m ks).1 + (keySpan m ks).2)

/-- `ivRegs(cfg)` (R151): the IV registers loadIV writes, which are those that R149 says the mode uses. -/
def ivRegs (m : Mode) : List (Fin 4) :=
  match m with
  | .tdesEcb | .desEcb | .aesEcb | .aesKeyPrep => []
  | .tdesCbc | .desCbc => [0, 1]
  | .aesCbc | .aesCtr | .aesGcm | .aesCcm => [0, 1, 2, 3]

/-- The block size B of R149, in words; AES-KeyPrep has no data. -/
def blockWords : Mode → Nat
  | .tdesEcb | .tdesCbc | .desEcb | .desCbc => 2
  | .aesEcb | .aesCbc | .aesCtr | .aesGcm | .aesCcm => 4
  | .aesKeyPrep => 0

end Sys2Proof
end

