-- ==== Sys2Proof/WellFormed.lean ====
section
/-! DEFINITION. Which terms of the syntax a record can hold: the presence rule of R68, a snapshot id that one word names
(R160), and a WIDTH of one byte. Which snapshots are valid is no matter of form: restore decides it (R460, R464). -/

namespace Sys2Proof

/-- `keySize` is present iff the mode is AES-family (R68). -/
def EngineConfig.wf (cfg : EngineConfig) : Bool :=
  cfg.keySize.isSome == cfg.mode.isAes

/-- A snapshot that the words of R160 lay out without loss: they hold the id modulo 2^32. -/
def ContextSnapshot.wf (snap : ContextSnapshot) : Bool := decide (snap.id < 2 ^ 32)

/-- WIDTH is an access size of 1 to 255 bytes (R140); only 4 is legal, and the transaction step says so (R225). -/
def widthWf (width : Nat) : Bool := decide (1 ≤ width ∧ width < 256)

/-- Well-formed instructions. -/
def Instr.wf : Instr → Bool
  | .rCr width => widthWf width
  | .wCr width _ => widthWf width
  | .rSr width => widthWf width
  | .wSr width _ => widthWf width
  | .rDin width => widthWf width
  | .wDin width _ => widthWf width
  | .rDout width => widthWf width
  | .wDout width _ => widthWf width
  | .rDmacr width => widthWf width
  | .wDmacr width _ => widthWf width
  | .rImscr width => widthWf width
  | .wImscr width _ => widthWf width
  | .rRisr width => widthWf width
  | .wRisr width _ => widthWf width
  | .rMisr width => widthWf width
  | .wMisr width _ => widthWf width
  | .rKey width _ => widthWf width
  | .wKey width _ _ => widthWf width
  | .rIv width _ => widthWf width
  | .wIv width _ _ => widthWf width
  | .rCswLo width _ => widthWf width
  | .wCswLo width _ _ => widthWf width
  | .rCswHi width _ => widthWf width
  | .wCswHi width _ _ => widthWf width
  | .rCsfLo width _ => widthWf width
  | .wCsfLo width _ _ => widthWf width
  | .rCsfHi width _ => widthWf width
  | .wCsfHi width _ _ => widthWf width
  | .busErrUnmapped90 width _ _ => widthWf width
  | .busErrUnmappedA0 width _ _ => widthWf width
  | .busErrUnmappedC0 width _ _ => widthWf width
  | .busErrMisalignedOdd width _ _ => widthWf width
  | .busErrMisalignedEven width _ _ => widthWf width
  | .configure cfg => cfg.wf
  | .loadKey _ => true
  | .loadIV _ => true
  | .flushFIFOs => true
  | .enable => true
  | .disable => true
  | .isBusy => true
  | .pushWord _ => true
  | .popWord => true
  | .inputNotFull => true
  | .inputEmpty => true
  | .outputNotEmpty => true
  | .outputFull => true
  | .setPhase _ => true
  | .save => true
  | .restore snap _ => snap.all ContextSnapshot.wf
  | .setInputDMA _ => true
  | .setOutputDMA _ => true
  | .setInterruptMask _ _ => true
  | .readInterruptStatus => true
  | .opReserved20 _ => true
  | .opReserved24 _ => true

end Sys2Proof
end

