-- ==== Sys2Proof/Decode.lean ====
section
/-! DEFINITION. Records, the total decoder and the encoder. A record of format BUS is `(T, WIDTH, DATA)` of
spec/30_encoding.md R140; a record of format OP is the operation code of R155 with its argument record as a list of
words. The rows of format BUS are the match and mask pairs of spec/opcode_table.json. How an argument record is laid
out in words is the model's own (DESIGN CHOICE, log entry 8), except for a configuration (R152), a phase code (R146)
and a snapshot (R160), which the spec lays out. Of an argument word only the bits that mean something are read. -/

namespace Sys2Proof

/-- One host program record (R140, R155, R156). `sel` is the 9-bit selector T of a transaction, or the 5-bit operation
code. `widthCode` is WIDTH, with 0 standing for the default 4 of the syntax `rd`/`wr` (R157; log entry 8). -/
inductive Record where
  | bus (sel : BitVec 9) (widthCode : BitVec 8) (data : Word)
  | op (sel : BitVec 5) (args : List Word)
deriving DecidableEq, Repr

/-- Why a record names no instruction. -/
inductive DecodeError where
  /-- a configuration word with a reserved mode code or AES key size: it is `encode` of no EngineConfig and `decode` of
  R153 gives it none (R148 (a), R159) -/
  | reservedConfig
  /-- a selector that no row of the table matches; R141 leaves none -/
  | noRow
deriving DecidableEq, Repr

/-! ### Helpers -/

/-- The n-th argument word; a word the record does not hold reads as 0. -/
def argWord (args : List Word) (n : Nat) : Word := args.getD n 0

/-- Four argument words from index `n` on. -/
def argVec4 (args : List Word) (n : Nat) : Vector Word 4 :=
  #v[argWord args n, argWord args (n + 1), argWord args (n + 2), argWord args (n + 3)]

/-- Eight argument words from index `n` on. -/
def argVec8 (args : List Word) (n : Nat) : Vector Word 8 :=
  #v[argWord args n, argWord args (n + 1), argWord args (n + 2), argWord args (n + 3),
    argWord args (n + 4), argWord args (n + 5), argWord args (n + 6), argWord args (n + 7)]

/-- Byte lane k of a word on a byte-addressed bus: bits 8k+7 to 8k (R103). -/
def byteLane (w : Word) (k : Nat) : Byte := w.extractLsb' (8 * k) 8

/-- The four bytes of a word, the lane of the lowest address first (R103). -/
def wordBytes (w : Word) : List Byte := [byteLane w 0, byteLane w 1, byteLane w 2, byteLane w 3]

/-- The words of a list of key pairs, left half first. -/
def pairWords : List WordPair → List Word
  | [] => []
  | p :: ps => p.1 :: p.2 :: pairWords ps

/-- The key pairs a list of words holds; a right half the record does not hold reads as 0, as every such word does. -/
def readPairs : List Word → List WordPair
  | [] => []
  | [l] => [(l, 0)]
  | l :: r :: rest => (l, r) :: readPairs rest

/-- The 23 words of a serialized snapshot (R160). -/
def snapshotWords (snap : ContextSnapshot) : List Word :=
  [BitVec.ofNat 32 snap.id, snap.cfgBits] ++ snap.iv.toList ++
    match snap.ctx with
    | some c => 1 :: (c.working.toList ++ c.final.toList)
    | none => List.replicate 17 0

/-- The 23 words of restore's first argument: what is no snapshot is laid out with 2 in word 6, which R160 gives no
snapshot. -/
def snapshotArgWords : Option ContextSnapshot → List Word
  | some snap => snapshotWords snap
  | none => [0, 0, 0, 0, 0, 0, 2] ++ List.replicate 16 0

/-- The bytes of a serialized snapshot, each word in the byte order of R103 (R160). -/
def snapshotBytes (snap : ContextSnapshot) : List Byte := (snapshotWords snap).flatMap wordBytes

/-- The snapshot 23 words lay out (R160): word 6 is 1 or 0, and without context words the last sixteen are 0. None where they
lay out no snapshot. -/
def readSnapshot (args : List Word) : Option ContextSnapshot :=
  if argWord args 6 == 1 then
    some { id := (argWord args 0).toNat, cfgBits := argWord args 1, iv := argVec4 args 2,
           ctx := some { working := argVec8 args 7, final := argVec8 args 15 } }
  else if argWord args 6 == 0 && (argVec8 args 7 == Vector.replicate 8 0) && (argVec8 args 15 == Vector.replicate 8 0) then
    some { id := (argWord args 0).toNat, cfgBits := argWord args 1, iv := argVec4 args 2, ctx := none }
  else none

/-- A Boolean argument word. -/
def boolWord (b : Bool) : Word := if b then 1 else 0

/-- The Boolean an argument word holds: its bit 0. -/
def readBool (w : Word) : Bool := w.getLsbD 0

/-- WIDTH of a record (log entry 8). -/
def readWidth (c : BitVec 8) : Nat := if c == 0 then 4 else c.toNat

/-- The record's form of WIDTH (log entry 8). A width that eight bits do not hold is written 255: it is another width
than 4, and all of those are one BusError (R101). -/
def widthCode (width : Nat) : BitVec 8 :=
  if width = 4 then 0 else if 1 ≤ width ∧ width < 256 then BitVec.ofNat 8 width else 255

/-! ### Format BUS -/

/-- W and DATA of a selector (R140): DATA is absent for a read. -/
def accessOf (t : BitVec 9) (data : Word) : Access := if t.getLsbD 8 then .write data else .read

/-- A two-bit index field at OFF[3:2] (rows R_IV, R_CSW, R_CSF and their writes). -/
def index4 (t : BitVec 9) : Fin 4 := (t.extractLsb' 2 2).toFin

/-- The three-bit index field at OFF[4:2] (rows R_KEY and W_KEY). -/
def index8 (t : BitVec 9) : Fin 8 := (t.extractLsb' 2 3).toFin

/-- A row of format BUS: its match and mask on T, and the instruction it makes of T, WIDTH and DATA. -/
structure BusRow where
  pattern : BitVec 9
  mask : BitVec 9
  build : BitVec 9 → Nat → Word → Instr

/-- The rows of opcode_table.json for CR, SR, DIN and DOUT (R142). -/
def busRowsPorts : List BusRow :=
  [⟨0x000, 0x1FF, fun _ n _ => .rCr n⟩, ⟨0x100, 0x1FF, fun _ n d => .wCr n d⟩,
   ⟨0x004, 0x1FF, fun _ n _ => .rSr n⟩, ⟨0x104, 0x1FF, fun _ n d => .wSr n d⟩,
   ⟨0x008, 0x1FF, fun _ n _ => .rDin n⟩, ⟨0x108, 0x1FF, fun _ n d => .wDin n d⟩,
   ⟨0x00C, 0x1FF, fun _ n _ => .rDout n⟩, ⟨0x10C, 0x1FF, fun _ n d => .wDout n d⟩]

/-- The rows for DMACR, IMSCR, RISR and MISR (R142). -/
def busRowsInterrupt : List BusRow :=
  [⟨0x010, 0x1FF, fun _ n _ => .rDmacr n⟩, ⟨0x110, 0x1FF, fun _ n d => .wDmacr n d⟩,
   ⟨0x014, 0x1FF, fun _ n _ => .rImscr n⟩, ⟨0x114, 0x1FF, fun _ n d => .wImscr n d⟩,
   ⟨0x018, 0x1FF, fun _ n _ => .rRisr n⟩, ⟨0x118, 0x1FF, fun _ n d => .wRisr n d⟩,
   ⟨0x01C, 0x1FF, fun _ n _ => .rMisr n⟩, ⟨0x11C, 0x1FF, fun _ n d => .wMisr n d⟩]

/-- The rows for the key, IV and context registers (R142). -/
def busRowsFiles : List BusRow :=
  [⟨0x020, 0x1E3, fun t n _ => .rKey n (index8 t)⟩, ⟨0x120, 0x1E3, fun t n d => .wKey n (index8 t) d⟩,
   ⟨0x040, 0x1F3, fun t n _ => .rIv n (index4 t)⟩, ⟨0x140, 0x1F3, fun t n d => .wIv n (index4 t) d⟩,
   ⟨0x050, 0x1F3, fun t n _ => .rCswLo n (index4 t)⟩, ⟨0x150, 0x1F3, fun t n d => .wCswLo n (index4 t) d⟩,
   ⟨0x060, 0x1F3, fun t n _ => .rCswHi n (index4 t)⟩, ⟨0x160, 0x1F3, fun t n d => .wCswHi n (index4 t) d⟩,
   ⟨0x070, 0x1F3, fun t n _ => .rCsfLo n (index4 t)⟩, ⟨0x170, 0x1F3, fun t n d => .wCsfLo n (index4 t) d⟩,
   ⟨0x080, 0x1F3, fun t n _ => .rCsfHi n (index4 t)⟩, ⟨0x180, 0x1F3, fun t n d => .wCsfHi n (index4 t) d⟩]

/-- The bus-error rows (R141, R224). -/
def busRowsError : List BusRow :=
  [⟨0x001, 0x001, fun t n d => .busErrMisalignedOdd n (accessOf t d) (t.extractLsb' 1 7)⟩,
   ⟨0x002, 0x003, fun t n d => .busErrMisalignedEven n (accessOf t d) (t.extractLsb' 2 6)⟩,
   ⟨0x090, 0x0F3, fun t n d => .busErrUnmapped90 n (accessOf t d) (t.extractLsb' 2 2)⟩,
   ⟨0x0A0, 0x0E3, fun t n d => .busErrUnmappedA0 n (accessOf t d) (t.extractLsb' 2 3)⟩,
   ⟨0x0C0, 0x0C3, fun t n d => .busErrUnmappedC0 n (accessOf t d) (t.extractLsb' 2 4)⟩]

/-- Every row of format BUS, the bus-error rows first, as R141 orders the decoding. -/
def busRows : List BusRow := busRowsError ++ (busRowsPorts ++ (busRowsInterrupt ++ busRowsFiles))

/-- Whether T selects a row. -/
def BusRow.selects (row : BusRow) (t : BitVec 9) : Bool := t &&& row.mask == row.pattern

/-- The instruction of a BUS record (R141). -/
def parseBus (sel : BitVec 9) (code : BitVec 8) (data : Word) : Except DecodeError Instr :=
  match busRows.find? (·.selects sel) with
  | some row => .ok (row.build sel (readWidth code) data)
  | none => .error .noRow

/-! ### Format OP -/

/-- The phase of an argument word (R146). -/
def readPhase (w : Word) : Phase := Phase.ofCode (w.extractLsb' 0 2)

/-- The argument record of configure: a word that R153 decodes, whatever its other bits. -/
def parseConfigure (args : List Word) : Except DecodeError Instr :=
  match decodeConfig (argWord args 0) with
  | some cfg => .ok (.configure cfg)
  | none => .error .reservedConfig

/-- The argument record of loadIV: the four words of IV0 and IV1. -/
def readIV (args : List Word) : IVMaterial :=
  { iv0 := (argWord args 0, argWord args 1), iv1 := (argWord args 2, argWord args 3) }

/-- The instruction of an OP record (R155): the argument record of restore is the 23 words of R160 and then the words of the
key pairs; that of setInterruptMask has bit 0 for the input source and bit 1 for the output source, as IMSCR (R50). The
reserved codes 20 to 31 give the reserved rows, whatever their arguments. -/
def parseOp (sel : BitVec 5) (args : List Word) : Except DecodeError Instr :=
  match sel.toNat with
  | 0 => parseConfigure args
  | 1 => .ok (.loadKey (readPairs args))
  | 2 => .ok (.loadIV (readIV args))
  | 3 => .ok .flushFIFOs
  | 4 => .ok .enable
  | 5 => .ok .disable
  | 6 => .ok .isBusy
  | 7 => .ok (.pushWord (argWord args 0))
  | 8 => .ok .popWord
  | 9 => .ok .inputNotFull
  | 10 => .ok .inputEmpty
  | 11 => .ok .outputNotEmpty
  | 12 => .ok .outputFull
  | 13 => .ok (.setPhase (readPhase (argWord args 0)))
  | 14 => .ok .save
  | 15 => .ok (.restore (readSnapshot args) (readPairs (args.drop 23)))
  | 16 => .ok (.setInputDMA (readBool (argWord args 0)))
  | 17 => .ok (.setOutputDMA (readBool (argWord args 0)))
  | 18 => .ok (.setInterruptMask ((argWord args 0).getLsbD 0) ((argWord args 0).getLsbD 1))
  | 19 => .ok .readInterruptStatus
  | 20 | 21 | 22 | 23 => .ok (.opReserved20 (sel.extractLsb' 0 2))
  | _ => .ok (.opReserved24 (sel.extractLsb' 0 3))

/-! ### The decoder and the encoder -/

/-- The decoder: total. The one kind of record it rejects is a configure of a reserved configuration (R141, R148, R155). -/
def decode : Record → Except DecodeError Instr
  | .bus sel code data => parseBus sel code data
  | .op sel args => parseOp sel args

/-- The W bit of a selector. -/
def Access.selBit : Access → BitVec 9
  | .read => 0x000
  | .write _ => 0x100

/-- The data word of a record; a read has none, written as 0. -/
def Access.dataWord : Access → Word
  | .read => 0
  | .write d => d

/-- The selector of an indexed row: the row's match with the index at OFF[.. : 2]. -/
def indexedSel (base : BitVec 9) (i : Nat) : BitVec 9 := base + BitVec.ofNat 9 (4 * i)

/-- The encoder (R140, R142, R155). -/
def encode : Instr → Record
  | .rCr n => .bus 0x000 (widthCode n) 0
  | .wCr n v => .bus 0x100 (widthCode n) v
  | .rSr n => .bus 0x004 (widthCode n) 0
  | .wSr n v => .bus 0x104 (widthCode n) v
  | .rDin n => .bus 0x008 (widthCode n) 0
  | .wDin n w => .bus 0x108 (widthCode n) w
  | .rDout n => .bus 0x00C (widthCode n) 0
  | .wDout n v => .bus 0x10C (widthCode n) v
  | .rDmacr n => .bus 0x010 (widthCode n) 0
  | .wDmacr n v => .bus 0x110 (widthCode n) v
  | .rImscr n => .bus 0x014 (widthCode n) 0
  | .wImscr n v => .bus 0x114 (widthCode n) v
  | .rRisr n => .bus 0x018 (widthCode n) 0
  | .wRisr n v => .bus 0x118 (widthCode n) v
  | .rMisr n => .bus 0x01C (widthCode n) 0
  | .wMisr n v => .bus 0x11C (widthCode n) v
  | .rKey n k => .bus (indexedSel 0x020 k) (widthCode n) 0
  | .wKey n k v => .bus (indexedSel 0x120 k) (widthCode n) v
  | .rIv n v => .bus (indexedSel 0x040 v) (widthCode n) 0
  | .wIv n v x => .bus (indexedSel 0x140 v) (widthCode n) x
  | .rCswLo n x => .bus (indexedSel 0x050 x) (widthCode n) 0
  | .wCswLo n x y => .bus (indexedSel 0x150 x) (widthCode n) y
  | .rCswHi n x => .bus (indexedSel 0x060 x) (widthCode n) 0
  | .wCswHi n x y => .bus (indexedSel 0x160 x) (widthCode n) y
  | .rCsfLo n x => .bus (indexedSel 0x070 x) (widthCode n) 0
  | .wCsfLo n x y => .bus (indexedSel 0x170 x) (widthCode n) y
  | .rCsfHi n x => .bus (indexedSel 0x080 x) (widthCode n) 0
  | .wCsfHi n x y => .bus (indexedSel 0x180 x) (widthCode n) y
  | .busErrUnmapped90 n a o => .bus (a.selBit + indexedSel 0x090 o.toNat) (widthCode n) a.dataWord
  | .busErrUnmappedA0 n a o => .bus (a.selBit + indexedSel 0x0A0 o.toNat) (widthCode n) a.dataWord
  | .busErrUnmappedC0 n a o => .bus (a.selBit + indexedSel 0x0C0 o.toNat) (widthCode n) a.dataWord
  | .busErrMisalignedOdd n a o => .bus (a.selBit + BitVec.ofNat 9 (2 * o.toNat + 1)) (widthCode n) a.dataWord
  | .busErrMisalignedEven n a o => .bus (a.selBit + BitVec.ofNat 9 (4 * o.toNat + 2)) (widthCode n) a.dataWord
  | .configure cfg => .op 0 [encodeConfig cfg]
  | .loadKey key => .op 1 (pairWords key)
  | .loadIV iv => .op 2 [iv.iv0.1, iv.iv0.2, iv.iv1.1, iv.iv1.2]
  | .flushFIFOs => .op 3 []
  | .enable => .op 4 []
  | .disable => .op 5 []
  | .isBusy => .op 6 []
  | .pushWord w => .op 7 [w]
  | .popWord => .op 8 []
  | .inputNotFull => .op 9 []
  | .inputEmpty => .op 10 []
  | .outputNotEmpty => .op 11 []
  | .outputFull => .op 12 []
  | .setPhase p => .op 13 [p.code.setWidth 32]
  | .save => .op 14 []
  | .restore snap key => .op 15 (snapshotArgWords snap ++ pairWords key)
  | .setInputDMA b => .op 16 [boolWord b]
  | .setOutputDMA b => .op 17 [boolWord b]
  | .setInterruptMask i o => .op 18 [boolWord i ||| (boolWord o <<< 1)]
  | .readInterruptStatus => .op 19 []
  | .opReserved20 r => .op (20 + r.setWidth 5) []
  | .opReserved24 r => .op (24 + r.setWidth 5) []

/-! ### The words of the opcode table -/

/-- The record of an instruction whose table bits are `w`: an OP code (one byte below 32), or else a BUS selector T.
The table gives no bits to WIDTH, DATA and the argument records, so all of them are 0 (log entry 8). -/
def recordOfTableWord (nbits w : Nat) : Record :=
  if nbits ≤ 8 && w < 32 then .op (BitVec.ofNat 5 w) []
  else .bus (BitVec.ofNat 9 w) 0 0

/-- The instruction the decoder reads from an instruction whose bits are `w`, numbered as spec/opcode_table.json numbers
them; none where it refuses, and where a bit above T[8] is set. -/
def decodeTableWord (nbits w : Nat) : Option Instr :=
  if w < 512 then
    match decode (recordOfTableWord nbits w) with
    | .ok i => some i
    | .error _ => none
  else none

end Sys2Proof
end

