-- ==== Sys2Proof/Machine/State.lean ====
section
/-! DEFINITION. The state of the CRYP block, of its controller, of its DMA agents and of the host that drives it
(spec/10_state.md R30 to R70), the records `faults` and `events`, the stops of the model, and the state after reset
(spec/70_reset_and_hazards.md R540, R541). State is plain data. -/

namespace Sys2Proof.Machine

open Sys2Proof.Config (Params)

/-- The model fault kinds of R501: what `raise Fault(k)` records. A model fault is no stop of the machine. -/
inductive FaultKind where
  | inFifoOverrun
  | outFifoUnderrun
  | keyWriteWhileBusy
  | ivWriteWhileBusy
  | ctxWriteWhileBusy
  | configWhileActive
  | phaseWhileActive
  | flushWhileBusy
  | keyNotPrepared
  | reservedConfig
  | busError
deriving DecidableEq, Repr

/-- The controller errors of R502. -/
inductive CtlError where
  | notConfigured
  | engineActive
  | busyKeyLoad
  | busyIVLoad
  | busyFlush
  | inputFull
  | outputEmpty
  | phaseOrder
  | phaseWhileActive
  | keyPrepRequired
  | keySizeMismatch
  | snapshotConsumed
  | saveInFinal
  | dmaConflict
  | drainTimeout
  | keyPrepTimeout
deriving DecidableEq, Repr

/-- The controller operations of R155, as `HostResult` names them. -/
inductive OpName where
  | configure | loadKey | loadIV | flushFIFOs | enable | disable | isBusy | pushWord | popWord
  | inputNotFull | inputEmpty | outputNotEmpty | outputFull | setPhase | save | restore
  | setInputDMA | setOutputDMA | setInterruptMask | readInterruptStatus
deriving DecidableEq, Repr

/-- The result of a controller operation (R155): `Ok()`, `Ok(Word)`, `Ok(ContextSnapshot)`, a Bool, a pair of Bools,
or `Err(e)`. -/
inductive OpResult where
  | ok
  | okWord (w : Word)
  | okSnapshot (snap : ContextSnapshot)
  | bool (b : Bool)
  | flags (inp : Bool) (out : Bool)
  | err (e : CtlError)
deriving DecidableEq, Repr

/-- The kinds of pass (R270). -/
inductive PassKind where
  | data | keyPrep | init | tag
deriving DecidableEq, Repr

/-- The pass in flight (R61); `data bo` will produce bo output words. The spec's None is Lean's `none`. -/
inductive Pass where
  | data (bo : Nat)
  | keyPrep
  | init
  | tag
deriving DecidableEq, Repr

/-- The two interrupt sources: IN, bit 0, and OUT, bit 1 (R503). -/
inductive Source where
  | input | output
deriving DecidableEq, Repr

/-- The entries of the event history (R282). -/
inductive Event where
  | notify (src : Source) (level : Bool)
  | dmaIn (w : Word)
  | dmaOut (w : Word)
  | passStart (kind : PassKind)
  | passDone (kind : PassKind)
  | abort (pass : Pass)
  | hostResult (op : OpName) (result : OpResult)
deriving DecidableEq, Repr

/-- The controller state `C` of R66. `outstanding` is a set of ids, held as the rising list of its elements. -/
structure Controller where
  cfg : Option EngineConfig
  tracker : Option Phase
  prepared : Bool
  keyPrepPending : Bool
  outstanding : List Nat
  nextId : Nat
deriving DecidableEq, Repr

/-- Whose turn it is in the total order of steps (R7, R109). -/
inductive Turn where
  | host | engine | dmaIn | dmaOut
deriving DecidableEq, Repr

/-- One line of the host's program (R9, R157, R158). `setb`, `clrb` and `poll` are the data-dependent
pseudo-instructions of R158; `wrOr`, `wrAnd` and `pollTest` are what is left of one after its first transaction.
`restoreHeld` is `restore s, [..]` of R159, which names a snapshot the host holds. `blockReset` is the external reset
of R540. -/
inductive Line where
  | record (r : Record)
  | setb (off : BitVec 8) (m : Word)
  | clrb (off : BitVec 8) (m : Word)
  | poll (off : BitVec 8) (m v : Word) (n : Nat)
  | wrOr (off : BitVec 8) (m : Word)
  | wrAnd (off : BitVec 8) (m : Word)
  | pollTest (off : BitVec 8) (m v : Word) (left seen : Nat)
  | restoreHeld (id : Nat) (key : List WordPair)
  | blockReset
deriving DecidableEq, Repr

/-- The whole machine. Each field's rule stands beside it; INVENTORY.md lists them with their reset values. -/
structure State where
  /-- the parameters of R5, which no step changes -/
  params : Params
  /-- CR, the stored bits (R32) -/
  cr : Word
  /-- DMACR (R49) -/
  dmacr : Word
  /-- IMSCR (R50) -/
  imscr : Word
  /-- K[0..7] (R53) -/
  key : Vector Word 8
  /-- IV[0..3] (R55) -/
  iv : Vector Word 4
  /-- CSW[0..7] (R56) -/
  csw : Vector Word 8
  /-- CSF[0..7] (R57) -/
  csf : Vector Word 8
  /-- the input FIFO, oldest word first (R58) -/
  inQ : List Word
  /-- the output FIFO, oldest word first (R59) -/
  outQ : List Word
  /-- SR.BUSY (R61) -/
  busy : Bool
  /-- the pass in flight (R61) -/
  pass : Option Pass
  /-- the input words the pass consumed (R61) -/
  inflight : List Word
  /-- a key preparation pass completed for the current key and key size (R62) -/
  decKeyReady : Bool
  /-- the tag pass of the current Final phase has completed (R63) -/
  finalDone : Bool
  /-- the sticky set of model faults, held as the list of its elements in code order (R64) -/
  faults : List FaultKind
  /-- the event history (R65) -/
  events : List Event
  /-- the controller state (R66) -/
  ctl : Controller
  /-- the DMA-in agent's source stream (R280) -/
  src : List Word
  /-- the DMA-out agent's sink (R281) -/
  snk : List Word
  /-- what is left of the host's program (R9, R557) -/
  prog : List Line
  /-- the values the host's bus reads returned, oldest first (R225, R557) -/
  reads : List Word
  /-- the `ok` values the polls of the host's program have bound, oldest first (R158) -/
  oks : List Bool
  /-- the snapshots the host holds in its own memory, as save() returned them (R67, R106) -/
  snaps : List ContextSnapshot
  /-- the model's own: the schedule still to come (R109; log entry 3) -/
  sched : List Turn
  /-- the model's own: how many values `draw()` has given (R13; log entry 5) -/
  draws : Nat
deriving DecidableEq, Repr

/-- The machine's stops of the kind fault. -/
inductive Fault where
  /-- Raised by `step` when the run has ended as R557 says: the schedule and the host's program are exhausted and no
  engine step is enabled. A DMA step may still be enabled then: that the model stops the DMA agents where the schedule
  ends is its choice, which R557 allows (DESIGN CHOICE, log entry 10). Safe: a longer schedule gives them their turns. -/
  | endOfRun
deriving DecidableEq, Repr

/-- The machine's stops of the kind refusal. -/
inductive Refusal where
  /-- Raised by an arm of `exec` for an instruction that has no meaning. No arm of this model raises it. Safe. -/
  | notModelled (mnemonic : String)
  /-- Raised by the rows OP-RESERVED: the operation codes 20 to 31, which a model refuses (R148 (d)). Safe. -/
  | reservedOperation
  /-- Raised by `step` for a configure record whose word holds a reserved mode code or AES key size: no EngineConfig has
  one (R68, R148 (a), R153), and a configuration outside R2 is refused before it runs (R159). Safe. -/
  | noSuchConfiguration
deriving DecidableEq, Repr

/-- The controller right after reset (R541). -/
def Controller.reset : Controller :=
  { cfg := none, tracker := none, prepared := false, keyPrepPending := false, outstanding := [], nextId := 0 }

/-- The machine right after reset (R540, R541). The parameters stand at their reference values (log entries 1 and 2),
the program and the DMA source are empty, and the model's own fields start at nothing (log entries 3, 5 and 9). -/
def State.reset : State :=
  { params := Config.Params.reference
    cr := 0
    dmacr := 0
    imscr := 0
    key := Vector.replicate 8 0
    iv := Vector.replicate 4 0
    csw := Vector.replicate 8 0
    csf := Vector.replicate 8 0
    inQ := []
    outQ := []
    busy := false
    pass := none
    inflight := []
    decKeyReady := false
    finalDone := false
    faults := []
    events := []
    ctl := Controller.reset
    src := []
    snk := []
    prog := []
    reads := []
    oks := []
    snaps := []
    sched := []
    draws := 0 }

end Sys2Proof.Machine
end

