-- ==== Sys2Proof/Machine/Flags.lean ====
section
/-! DEFINITION. Every computed status of the block: the five flow predicates and SR (spec/10_state.md R40 to R46), RISR
and MISR (R51, R52), the interrupt line (R504), the DMA request lines (R280, R281), and the derived predicates Drained,
Active and Quiet (spec/00_scope.md R14, spec/42_lifecycle.md R341). None of them is stored. -/

namespace Sys2Proof.Machine

/-- Input-Empty (R40, R41). -/
def State.ifem (s : State) : Bool := s.inQ.length == 0

/-- Input-Not-Full (R40, R42). -/
def State.ifnf (s : State) : Bool := decide (s.inQ.length < s.params.inDepth)

/-- Output-Not-Empty (R40, R43). -/
def State.ofne (s : State) : Bool := decide (0 < s.outQ.length)

/-- Output-Full (R40, R44). -/
def State.offu (s : State) : Bool := s.outQ.length == s.params.outDepth

/-- SR as a read computes it (R40, R202): BUSY, OFFU, OFNE, IFNF, IFEM from bit 4 to bit 0. -/
def State.srWord (s : State) : Word :=
  (BitVec.ofBool s.busy ++ BitVec.ofBool s.offu ++ BitVec.ofBool s.ofne ++ BitVec.ofBool s.ifnf
    ++ BitVec.ofBool s.ifem).setWidth 32

/-- RISR as a read computes it (R51, R212): OUTRIS at bit 1 and INRIS at bit 0. -/
def State.risrWord (s : State) : Word :=
  (BitVec.ofBool s.ofne ++ BitVec.ofBool s.ifnf).setWidth 32

/-- MISR as a read computes it (R52, R214). -/
def State.misrWord (s : State) : Word := s.risrWord &&& s.imscr &&& lowTwoMask

/-- The level of one masked interrupt status bit (R503). -/
def State.misrBit (s : State) : Source → Bool
  | .input => s.misrWord.getLsbD 0
  | .output => s.misrWord.getLsbD 1

/-- The interrupt line IRQ, a level (R52, R504). -/
def State.irq (s : State) : Bool := s.misrBit .input || s.misrBit .output

/-- The input DMA request line (R280). -/
def State.dmaInRequest (s : State) : Bool := dien s.dmacr && s.ifnf

/-- The output DMA request line (R281). -/
def State.dmaOutRequest (s : State) : Bool := doen s.dmacr && s.ofne

/-- `Drained` (R14). -/
def State.drained (s : State) : Bool := s.inQ.length == 0 && s.outQ.length == 0 && !s.busy

/-- `Active` (R14). -/
def State.active (s : State) : Bool := crypen s.cr && !s.drained

/-- `DrainedSR(sr)` over a status word that was read (R14): IFEM = 1, OFNE = 0 and BUSY = 0. -/
def drainedSr (sr : Word) : Bool := sr.getLsbD 0 && !sr.getLsbD 2 && !sr.getLsbD 4

/-- `Quiet(cr, sr, dm)` over three words that were read (R341). -/
def quiet (cr sr dm : Word) : Bool := !crypen cr || (drainedSr sr && !dien dm)

end Sys2Proof.Machine
end

