-- ==== Sys2Proof/Machine/Operands.lean ====
section
/-! DEFINITION. The operand forms: an index into a register file (spec/10_state.md R30), the context index of the two
halves of each context file (spec/30_encoding.md R142), the key and IV register lists of a configuration (R150, R151),
and an absolute bus address inside the block's window (spec/20_memory.md R100, R107). -/

namespace Sys2Proof.Machine

/-- A key register number, from a slot arithmetic that stays below 8 (R150). -/
def keyIndex (n : Nat) : Fin 8 := Fin.ofNat 8 n

/-- The context register of a `-lo` row: x itself (R142). -/
def ctxLo (x : Fin 4) : Fin 8 := Fin.ofNat 8 x.val

/-- The context register of a `-hi` row: 4 + x (R142). -/
def ctxHi (x : Fin 4) : Fin 8 := Fin.ofNat 8 (4 + x.val)

/-- Read a register of a file of eight. -/
def get8 (file : Vector Word 8) (i : Fin 8) : Word := file[i.val]

/-- Write a register of a file of eight. -/
def set8 (file : Vector Word 8) (i : Fin 8) (w : Word) : Vector Word 8 := file.set i.val w i.isLt

/-- Read a register of a file of four. -/
def get4 (file : Vector Word 4) (i : Fin 4) : Word := file[i.val]

/-- Write a register of a file of four. -/
def set4 (file : Vector Word 4) (i : Fin 4) (w : Word) : Vector Word 4 := file.set i.val w i.isLt

/-- The registers and values that load a key from slot `q` on: K[2q] the left half, K[2q+1] the right (R150). -/
def keyWritesFrom (q : Nat) : List WordPair → List (Fin 8 × Word)
  | [] => []
  | p :: ps => (keyIndex (2 * q), p.1) :: (keyIndex (2 * q + 1), p.2) :: keyWritesFrom (q + 1) ps

/-- The key register writes of a configuration, in order (R150, R343). -/
def keyWrites (cfg : EngineConfig) (key : List WordPair) : List (Fin 8 × Word) :=
  keyWritesFrom (keySlot cfg 0) key

/-- The word of an IV material that goes to IV[v] (R151). -/
def ivWordOf (iv : IVMaterial) (v : Fin 4) : Word :=
  if v.val = 0 then iv.iv0.1 else if v.val = 1 then iv.iv0.2 else if v.val = 2 then iv.iv1.1 else iv.iv1.2

/-- The IV register writes of a configuration, in order (R151, R344). -/
def ivWrites (m : Mode) (iv : IVMaterial) : List (Fin 4 × Word) := (ivRegs m).map fun v => (v, ivWordOf iv v)

/-- The key register file as the core sees it: a register its configuration does not use is withheld (R283 law (d)). -/
def visibleKey (m : Mode) (ks : Option KeySize) (key : Vector Word 8) : Vector Word 8 :=
  key.mapIdx fun i w => if keyUsed m ks i then w else 0

/-- The IV registers as the core sees them: all four, as R273 passes them, but in an ECB mode, where the engine ignores
them (R55, R219; log entry 6). -/
def visibleIv (m : Mode) (iv : Vector Word 4) : Vector Word 4 :=
  if m.isEcb then Vector.replicate 4 0 else iv

/-- A context file as the core sees it: withheld in a non-AEAD mode (R56; log entry 6). -/
def visibleCtx (m : Mode) (ctx : Vector Word 8) : Vector Word 8 :=
  if m.isAead then ctx else Vector.replicate 8 0

/-- The phase as the core sees it: withheld in a non-AEAD mode (R38, R286; log entry 6). -/
def visiblePhase (m : Mode) (cr : Word) : Phase :=
  if m.isAead then phaseOf cr else .init

/-- CRYP_BASE (R5, R107): 256-byte aligned. A bus address of 32 bits is the model's choice (log entry 22). -/
def crypBase (p : Config.Params) : Word := p.crypPage ++ (0 : BitVec 8)

/-- The offset of an absolute bus address inside the block's 256-byte window (R100); none outside it. The spec gives a
bus address no width: 32 bits, a 24-bit page and an 8-bit offset, are a DESIGN CHOICE (log entry 22). -/
def windowOffset (p : Config.Params) (addr : Word) : Option (BitVec 8) :=
  if addr.extractLsb' 8 24 == p.crypPage then some (addr.extractLsb' 0 8) else none

/-- The record of the bus transaction at an absolute address (R12): none where the block is not addressed. Every width
but 4 gives a record that raises BusError (R101; `widthCode`). -/
def busRecordAt (p : Config.Params) (addr : Word) (a : Access) (width : Nat) : Option Record :=
  (windowOffset p addr).map fun off => .bus (a.selBit + off.setWidth 9) (widthCode width) a.dataWord

end Sys2Proof.Machine
end

