-- ==== Sys2Proof/Machine/Ops.lean ====
section
/-! DEFINITION. The named operations over the state that every meaning shares: the outcome primitives of
spec/00_scope.md R13 (`raise Fault(k)`, which is this block's whole exception entry by R500 and R507, `emit` and
`draw`), the notification check (spec/41_engine.md R282), the transaction step (spec/40_register_access.md R225), the
FIFO ends, AbortPass (R277) and StartZeroInputPass (R278). R508: there is no return from a trap. -/

namespace Sys2Proof.Machine

/-! ### Codes -/

/-- The code of a model fault kind (R501). -/
def FaultKind.code : FaultKind → Nat
  | .inFifoOverrun => 1
  | .outFifoUnderrun => 2
  | .keyWriteWhileBusy => 3
  | .ivWriteWhileBusy => 4
  | .ctxWriteWhileBusy => 5
  | .configWhileActive => 6
  | .phaseWhileActive => 7
  | .flushWhileBusy => 8
  | .keyNotPrepared => 9
  | .reservedConfig => 10
  | .busError => 11

/-- The code of a controller error (R502). -/
def CtlError.code : CtlError → Nat
  | .notConfigured => 1
  | .engineActive => 2
  | .busyKeyLoad => 3
  | .busyIVLoad => 4
  | .busyFlush => 5
  | .inputFull => 6
  | .outputEmpty => 7
  | .phaseOrder => 8
  | .phaseWhileActive => 9
  | .keyPrepRequired => 10
  | .keySizeMismatch => 11
  | .snapshotConsumed => 12
  | .saveInFinal => 13
  | .dmaConflict => 14
  | .drainTimeout => 15
  | .keyPrepTimeout => 16

/-! ### Sets as rising lists -/

/-- Put a fault kind into the set, held in code order without repeats (R64; log entry 23). -/
def insertFault (k : FaultKind) : List FaultKind → List FaultKind
  | [] => [k]
  | j :: js =>
    if k = j then j :: js
    else if k.code < j.code then k :: j :: js
    else j :: insertFault k js

/-- Put an id into a set of ids, held rising without repeats (R66; log entry 23). -/
def insertId (n : Nat) : List Nat → List Nat
  | [] => [n]
  | m :: ms =>
    if n = m then m :: ms
    else if n < m then n :: m :: ms
    else m :: insertId n ms

/-- Take an id out of a set of ids (R464). -/
def removeId (n : Nat) (ids : List Nat) : List Nat := ids.filter (· ≠ n)

/-! ### Outcome primitives (R13) -/

/-- `raise Fault(k)`: the step records k in the sticky set and has no other effect (R13, R64, R501). -/
def State.raiseFault (k : FaultKind) (s : State) : State := { s with faults := insertFault k s.faults }

/-- `emit(ev)` (R13). -/
def State.emit (ev : Event) (s : State) : State := { s with events := s.events ++ [ev] }

/-- One fresh value of `draw()` and the state that has given it (R13). -/
def State.draw (s : State) : Word × State := (Config.draw s.draws, { s with draws := s.draws + 1 })

/-- Four draws from the n-th on. -/
def draws4 (n : Nat) : Vector Word 4 :=
  #v[Config.draw n, Config.draw (n + 1), Config.draw (n + 2), Config.draw (n + 3)]

/-- Eight draws from the n-th on. -/
def draws8 (n : Nat) : Vector Word 8 :=
  #v[Config.draw n, Config.draw (n + 1), Config.draw (n + 2), Config.draw (n + 3),
    Config.draw (n + 4), Config.draw (n + 5), Config.draw (n + 6), Config.draw (n + 7)]

/-- The part of NotifyCheck for one source: one event, with the new level, iff the masked status bit changed (R282). -/
def notifyOne (before : State) (src : Source) (s : State) : State :=
  if before.misrBit src = s.misrBit src then s else s.emit (.notify src (s.misrBit src))

/-- `NotifyCheck()` after a step from `before` to `after`, IN before OUT (R282). -/
def notifyCheck (before after : State) : State := notifyOne before .output (notifyOne before .input after)

/-! ### The transaction step (R225) -/

/-- What a register row's rule does: raise a fault, or give the state and, for a read, the value. -/
inductive RowResult where
  | fault (k : FaultKind)
  | done (s : State) (value : Option Word)
deriving DecidableEq, Repr

/-- A register row's rule, as a function of the state. -/
abbrev Row := State → RowResult

/-- `Transaction(t)` of R225 for the row that T selects: the state after it and the value a read returns. A fault
changes `faults` alone and returns no value. -/
def transaction (width : Nat) (row : Row) (s : State) : State × Option Word :=
  if width ≠ 4 then (s.raiseFault .busError, none)
  else
    match row s with
    | .fault k => (s.raiseFault k, none)
    | .done s' value => (notifyCheck s s', value)

/-- A register transaction of the host's program: the value a read returns goes to the host's record of reads
(R225, R557; log entry 14). -/
def hostTransaction (width : Nat) (row : Row) (s : State) : State :=
  let r := transaction width row s
  { r.1 with reads := r.1.reads ++ r.2.toList }

/-- `rd REG -> x` inside a controller operation (R340): one transaction of width 4 (R12). Of the rows the controller
reads only DOUT can fault, and popWord reads it where SR has just shown a word and DMA-out is detached: the fallback 0 is
never used (log entry 18). -/
def State.rd (row : Row) (s : State) : Word × State :=
  let r := transaction 4 row s
  (r.2.getD 0, r.1)

/-- `wr REG, v` inside a controller operation (R340): one transaction of width 4 (R12). -/
def State.wr (row : Row) (s : State) : State := (transaction 4 row s).1

/-- The return of a controller operation: it appends the result to the event history and changes nothing else
(R340). -/
def State.finish (op : OpName) (result : OpResult) (s : State) : State := s.emit (.hostResult op result)

/-- Update the controller's own state; host-local, no bus step (R340). -/
def State.withCtl (f : Controller → Controller) (s : State) : State := { s with ctl := f s.ctl }

/-! ### Steps inside a CR write -/

/-- AbortPass of R277: the consumed words are lost; a data, init or tag pass leaves IV, CSW and CSF drawn, and a key
preparation leaves the key not prepared. -/
def abortPass (s : State) : State :=
  match s.pass with
  | none => { s with inflight := [], busy := false }
  | some .keyPrep =>
    { s with decKeyReady := false, inflight := [], busy := false, pass := none }.emit (.abort .keyPrep)
  | some p =>
    { s with
      iv := draws4 s.draws, csw := draws8 (s.draws + 4), csf := draws8 (s.draws + 12), draws := s.draws + 20
      inflight := [], busy := false, pass := none }.emit (.abort p)

/-- FINAL_IN_WORDS(m) (R5); it is read for GCM and CCM only. -/
def finalInWords (p : Config.Params) (m : Mode) : Nat :=
  match m with
  | .aesGcm => p.finalGcm.words
  | .aesCcm => p.finalCcm.words
  | .tdesEcb | .tdesCbc | .desEcb | .desCbc | .aesEcb | .aesCbc | .aesCtr | .aesKeyPrep => 0

/-- `kp(c)` of R278: enabled in AES-KeyPrep mode. -/
def keyPrepCondition (c : Word) : Bool := crypen c && crMode c == some .aesKeyPrep

/-- `in(c)` of R278: enabled in the Init phase of an AEAD mode. -/
def initCondition (c : Word) : Bool := crypen c && (crMode c).any Mode.isAead && phaseOf c == .init

/-- `tg(c)` of R278: enabled in the Final phase of an AEAD mode whose tag pass takes no input. -/
def tagCondition (p : Config.Params) (c : Word) : Bool :=
  crypen c && (crMode c).any (fun m => m.isAead && finalInWords p m == 0) && phaseOf c == .final

/-- Start a pass that has consumed `words` (R272, R278). -/
def State.startPass (kind : PassKind) (p : Pass) (words : List Word) (s : State) : State :=
  { s with inflight := words, busy := true, pass := some p }.emit (.passStart kind)

/-- StartZeroInputPass of R278, at the end of a CR write from `old` to `new`. -/
def startZeroInputPass (old new : Word) (s : State) : State :=
  if s.busy then s
  else if keyPrepCondition new && !keyPrepCondition old then
    { s with decKeyReady := false }.startPass .keyPrep .keyPrep []
  else if initCondition new && !initCondition old then s.startPass .init .init []
  else if tagCondition s.params new && !tagCondition s.params old && !s.finalDone then s.startPass .tag .tag []
  else s

/-! ### The CR write (R201) -/

/-- The value a CR write stores: the writable bits but FFLUSH (R201). -/
def crStored (v : Word) : Word := v &&& crWmask &&& ~~~fflushMask

/-- The first check of R201 that a CR write of `v` fails, in the rule's order (R505). -/
def crFault (v : Word) (s : State) : Option FaultKind :=
  if reservedConfig (crStored v) then some .reservedConfig
  else if s.active && s.cr &&& cfgMask != crStored v &&& cfgMask then some .configWhileActive
  else if s.active && s.cr &&& phMask != crStored v &&& phMask then some .phaseWhileActive
  else if v.getLsbD 14 && s.busy then some .flushWhileBusy
  else none

/-- The effects of a CR write of `v` that passed every check, in the order of R201. -/
def crApply (v : Word) (s : State) : State :=
  let old := s.cr
  let new := crStored v
  let s1 := if crypen old && !crypen new && s.busy then abortPass s else s
  let s2 := { s1 with cr := new }
  let s3 := if v.getLsbD 14 then { s2 with inQ := [], outQ := [] } else s2
  let s4 := if ksField old != ksField new then { s3 with decKeyReady := false } else s3
  let s5 := if phaseField old != phaseField new then { s4 with finalDone := false } else s4
  startZeroInputPass old new s5

/-! ### Reset (R540, R541) -/

/-- A block reset during a run: every register, FIFO and hidden field and the controller state but `nextId` return to
their reset values; `faults`, `events`, the DMA streams, the parameters and what the host holds stay (R540, R541; log
entry 15). Each masked interrupt status bit that falls with it is one notification (R282, R504, D21). -/
def blockReset (s : State) : State :=
  notifyCheck s { State.reset with
    params := s.params
    faults := s.faults
    events := s.events
    ctl := { Controller.reset with nextId := s.ctl.nextId }
    src := s.src
    snk := s.snk
    prog := s.prog
    reads := s.reads
    oks := s.oks
    snaps := s.snaps
    sched := s.sched
    draws := s.draws }

end Sys2Proof.Machine
end

