-- ==== Sys2Proof/Machine/Engine.lean ====
section
/-! DEFINITION. The steps the block takes by itself (spec/41_engine.md): the dispatcher's data shape (R271), the data-unit
swap (R284), the calls of the opaque core with the laws of R283 and R288, the engine's five steps (R272 to R276), and
the end-of-step bookkeeping they share. -/

namespace Sys2Proof.Machine

/-! ### Data path -/

/-- `swap(dt, w)` of R284. -/
def swapWord (dt : DataWidth) (w : Word) : Word :=
  match dt with
  | .w32 => w
  | .w16 => w.extractLsb' 0 16 ++ w.extractLsb' 16 16
  | .w8 => w.extractLsb' 0 8 ++ w.extractLsb' 8 8 ++ w.extractLsb' 16 8 ++ w.extractLsb' 24 8
  | .w1 => w.reverse

/-- CipherBlock with the laws of R283: (a) exactly `bo` output words, (c) IV untouched in the ECB modes and CSW and CSF
untouched outside GCM and CCM (R288), (d) key registers outside the configuration withheld. -/
def coreBlock (m : Mode) (cr : Word) (key : Vector Word 8) (iv : Vector Word 4) (csw csf : Vector Word 8)
    (din : List Word) (bo : Nat) : List Word × Vector Word 4 × Vector Word 8 × Vector Word 8 :=
  let ks := kszOf m cr
  let r := Config.cipherBlock
    { mode := m, dir := crDir cr, keySize := ks, key := visibleKey m ks key, iv := visibleIv m iv,
      phase := visiblePhase m cr, csw := visibleCtx m csw, csf := visibleCtx m csf, din := din }
  (r.out.toList.take bo, if m.isEcb then iv else r.iv, if m.isAead then r.csw else csw, if m.isAead then r.csf else csf)

/-- InitPass with law (d) of R283. -/
def coreInit (m : Mode) (cr : Word) (key : Vector Word 8) (iv : Vector Word 4) : Config.InitOut :=
  let ks := kszOf m cr
  Config.initPass { mode := m, keySize := ks, key := visibleKey m ks key, iv := iv }

/-- TagPass with law (d) of R283; the tag is four words (R276). -/
def coreTag (m : Mode) (cr : Word) (key : Vector Word 8) (iv : Vector Word 4) (csw csf : Vector Word 8)
    (din : List Word) : Config.CoreOut :=
  let ks := kszOf m cr
  Config.tagPass
    { mode := m, dir := crDir cr, keySize := ks, key := visibleKey m ks key, iv := iv, csw := csw, csf := csf, din := din }

/-! ### The dispatcher -/

/-- `shape(cr, finalDone)` of R271: the kind, the input words and the output words of the pass the engine may start
next from FIFO input. -/
def shape (p : Config.Params) (cr : Word) (finalDone : Bool) : Option (PassKind × Nat × Nat) :=
  match crMode cr with
  | none => none
  | some .tdesEcb | some .tdesCbc | some .desEcb | some .desCbc => some (.data, 2, 2)
  | some .aesEcb | some .aesCbc | some .aesCtr => some (.data, 4, 4)
  | some .aesKeyPrep => none
  | some .aesGcm => aeadShape .aesGcm
  | some .aesCcm => aeadShape .aesCcm
where
  /-- The AEAD rows of R271, by phase. -/
  aeadShape (m : Mode) : Option (PassKind × Nat × Nat) :=
    match phaseOf cr with
    | .init => none
    | .header => some (.data, 4, 0)
    | .payload => some (.data, 4, 4)
    | .final => if !finalDone && finalInWords p m == 4 then some (.tag, 4, 4) else none

/-- The pass a shape starts (R272). -/
def passOf (kind : PassKind) (bo : Nat) : Pass :=
  match kind with
  | .data => .data bo
  | .keyPrep => .keyPrep
  | .init => .init
  | .tag => .tag

/-- The gate of R272: the mode is AES-ECB or AES-CBC, the direction is Decrypt and no key preparation is recorded. -/
def keyMissing (s : State) : Bool :=
  (crMode s.cr).any Mode.prepBeforeDec && crDir s.cr == .dec && !s.decKeyReady

/-! ### The five engine steps. Each is none where it is not enabled. -/

/-- The end of a pass: the engine is idle again and the pass is done (R273 to R276). -/
def State.endPass (kind : PassKind) (s : State) : State :=
  { s with inflight := [], busy := false, pass := none }.emit (.passDone kind)

/-- StartBlock (R272). -/
def startBlock (s : State) : Option State :=
  match shape s.params s.cr s.finalDone with
  | none => none
  | some (kind, bi, bo) =>
    if crypen s.cr && !s.busy && decide (bi ≤ s.inQ.length) && decide (s.outQ.length + bo ≤ s.params.outDepth) then
      if keyMissing s then some (s.raiseFault .keyNotPrepared)
      else
        some (notifyCheck s
          ({ s with inQ := s.inQ.drop bi }.startPass kind (passOf kind bo) (s.inQ.take bi)))
    else none

/-- CompleteData (R273). -/
def completeData (bo : Nat) (s : State) : Option State :=
  match crMode s.cr with
  | none => none
  | some m =>
    if crypen s.cr then
      let dt := crWidth s.cr
      let r := coreBlock m s.cr s.key s.iv s.csw s.csf (s.inflight.map (swapWord dt)) bo
      some (notifyCheck s
        ({ s with
            outQ := s.outQ ++ r.1.map (swapWord dt), iv := r.2.1, csw := r.2.2.1, csf := r.2.2.2 }.endPass .data))
    else none

/-- CompleteKeyPrep (R274). -/
def completeKeyPrep (s : State) : Option State :=
  if crypen s.cr then some (notifyCheck s ({ s with decKeyReady := true }.endPass .keyPrep)) else none

/-- CompleteInit (R275). -/
def completeInit (s : State) : Option State :=
  match crMode s.cr with
  | none => none
  | some m =>
    if crypen s.cr then
      let r := coreInit m s.cr s.key s.iv
      some (notifyCheck s ({ s with iv := r.iv, csw := r.csw, csf := r.csf }.endPass .init))
    else none

/-- CompleteTag (R276). -/
def completeTag (s : State) : Option State :=
  match crMode s.cr with
  | none => none
  | some m =>
    if crypen s.cr && decide (s.outQ.length + 4 ≤ s.params.outDepth) then
      let dt := crWidth s.cr
      let r := coreTag m s.cr s.key s.iv s.csw s.csf (s.inflight.map (swapWord dt))
      some (notifyCheck s
        ({ s with
            outQ := s.outQ ++ r.out.toList.map (swapWord dt), iv := r.iv, csw := r.csw, csf := r.csf
            finalDone := true }.endPass .tag))
    else none

/-- The engine step that is enabled, if one is (R270). At most one pass is in flight, so at most one is (log
entry 12). -/
def engineStep (s : State) : Option State :=
  match s.pass with
  | none => startBlock s
  | some (.data bo) => completeData bo s
  | some .keyPrep => completeKeyPrep s
  | some .init => completeInit s
  | some .tag => completeTag s

end Sys2Proof.Machine
end

