-- ==== Sys2Proof/Machine/Ports.lean ====
section
/-! DEFINITION. The register rows of CR, SR, DIN and DOUT (spec/40_register_access.md R200 to R207) and their
instructions. -/

namespace Sys2Proof.Machine

/-! ### Rows -/

/-- R_CR (R200). -/
def rowRCr : Row := fun s => .done s (some s.cr)

/-- W_CR (R201). -/
def rowWCr (v : Word) : Row := fun s =>
  match crFault v s with
  | some k => .fault k
  | none => .done (crApply v s) none

/-- R_SR (R202). -/
def rowRSr : Row := fun s => .done s (some s.srWord)

/-- W_SR: no effect (R203). -/
def rowWSr (_v : Word) : Row := fun s => .done s none

/-- R_DIN: `draw()` (R204). -/
def rowRDin : Row := fun s => .done s.draw.2 (some s.draw.1)

/-- W_DIN (R205). -/
def rowWDin (w : Word) : Row := fun s =>
  if s.inQ.length = s.params.inDepth then .fault .inFifoOverrun
  else .done { s with inQ := s.inQ ++ [w] } none

/-- R_DOUT (R206). -/
def rowRDout : Row := fun s =>
  match s.outQ with
  | [] => .fault .outFifoUnderrun
  | w :: rest => .done { s with outQ := rest } (some w)

/-- W_DOUT: no effect (R207). -/
def rowWDout (_v : Word) : Row := fun s => .done s none

/-! ### Instructions -/

/-- R_CR (R200, R225). -/
def execRCr (width : Nat) (s : State) : Host.Outcome State Fault Refusal :=
  .next (hostTransaction width rowRCr s)

/-- W_CR (R201, R225). -/
def execWCr (width : Nat) (v : Word) (s : State) : Host.Outcome State Fault Refusal :=
  .next (hostTransaction width (rowWCr v) s)

/-- R_SR (R202, R225). -/
def execRSr (width : Nat) (s : State) : Host.Outcome State Fault Refusal :=
  .next (hostTransaction width rowRSr s)

/-- W_SR (R203, R225). -/
def execWSr (width : Nat) (v : Word) (s : State) : Host.Outcome State Fault Refusal :=
  .next (hostTransaction width (rowWSr v) s)

/-- R_DIN (R204, R225). -/
def execRDin (width : Nat) (s : State) : Host.Outcome State Fault Refusal :=
  .next (hostTransaction width rowRDin s)

/-- W_DIN (R205, R225). -/
def execWDin (width : Nat) (w : Word) (s : State) : Host.Outcome State Fault Refusal :=
  .next (hostTransaction width (rowWDin w) s)

/-- R_DOUT (R206, R225). -/
def execRDout (width : Nat) (s : State) : Host.Outcome State Fault Refusal :=
  .next (hostTransaction width rowRDout s)

/-- W_DOUT (R207, R225). -/
def execWDout (width : Nat) (v : Word) (s : State) : Host.Outcome State Fault Refusal :=
  .next (hostTransaction width (rowWDout v) s)

end Sys2Proof.Machine
end

