-- ==== Sys2Proof/Machine/Agents.lean ====
section
/-! DEFINITION. The agents beside the host (spec/00_scope.md R7): the turns of the engine and of the two DMA agents
(spec/41_engine.md R270, R280, R281), and what they do between two host transactions of one controller operation
(spec/20_memory.md R105, R109). -/

namespace Sys2Proof.Machine

/-- DMA-in (R280): one W_DIN transaction of the source's head, where DIEN = 1, the input FIFO has room and the source
holds a word. -/
def dmaInStep (s : State) : Option State :=
  match s.src with
  | [] => none
  | w :: rest =>
    if s.dmaInRequest then some ({ (transaction 4 (rowWDin w) s).1 with src := rest }.emit (.dmaIn w)) else none

/-- DMA-out (R281): one R_DOUT transaction, where DOEN = 1 and the output FIFO holds a word. -/
def dmaOutStep (s : State) : Option State :=
  if s.dmaOutRequest then
    match transaction 4 rowRDout s with
    | (s', some w) => some ({ s' with snk := s.snk ++ [w] }.emit (.dmaOut w))
    | (s', none) => some s'
  else none

/-- The step of one agent other than the host; a turn whose agent has no step enabled changes nothing (log entry 3). -/
def agentStep (t : Turn) (s : State) : State :=
  match t with
  | .host => s
  | .engine => (engineStep s).getD s
  | .dmaIn => (dmaInStep s).getD s
  | .dmaOut => (dmaOutStep s).getD s

/-- Take the turns of the schedule up to and including the host's next one. -/
def runTurns : List Turn → State → State
  | [], s => { s with sched := [] }
  | .host :: rest, s => { s with sched := rest }
  | t :: rest, s => runTurns rest (agentStep t s)

/-- The point between two host steps of one controller operation, where other agents may step (R105; log entry 4). -/
def State.gap (s : State) : State := runTurns s.sched s

end Sys2Proof.Machine
end

