-- ==== Sys2Proof/Machine/Files.lean ====
section
/-! DEFINITION. The register rows of the key, IV and context register files and of the bus errors
(spec/40_register_access.md R216 to R224) and their instructions. -/

namespace Sys2Proof.Machine

/-! ### Rows -/

/-- R_KEY: `draw()`, unrelated to K[k] (R216). -/
def rowRKey (_k : Fin 8) : Row := fun s => .done s.draw.2 (some s.draw.1)

/-- W_KEY: it also clears `decKeyReady` (R217). -/
def rowWKey (k : Fin 8) (v : Word) : Row := fun s =>
  if s.busy then .fault .keyWriteWhileBusy
  else .done { s with key := set8 s.key k v, decKeyReady := false } none

/-- R_IV: `draw()` while busy (R218). -/
def rowRIv (v : Fin 4) : Row := fun s =>
  if s.busy then .done s.draw.2 (some s.draw.1) else .done s (some (get4 s.iv v))

/-- W_IV (R219). -/
def rowWIv (v : Fin 4) (x : Word) : Row := fun s =>
  if s.busy then .fault .ivWriteWhileBusy else .done { s with iv := set4 s.iv v x } none

/-- R_CSW: `draw()` while busy (R220). -/
def rowRCsw (x : Fin 8) : Row := fun s =>
  if s.busy then .done s.draw.2 (some s.draw.1) else .done s (some (get8 s.csw x))

/-- W_CSW (R221). -/
def rowWCsw (x : Fin 8) (y : Word) : Row := fun s =>
  if s.busy then .fault .ctxWriteWhileBusy else .done { s with csw := set8 s.csw x y } none

/-- R_CSF: `draw()` while busy (R222). -/
def rowRCsf (x : Fin 8) : Row := fun s =>
  if s.busy then .done s.draw.2 (some s.draw.1) else .done s (some (get8 s.csf x))

/-- W_CSF (R223). -/
def rowWCsf (x : Fin 8) (y : Word) : Row := fun s =>
  if s.busy then .fault .ctxWriteWhileBusy else .done { s with csf := set8 s.csf x y } none

/-- BUSERR (R224). -/
def rowBusErr : Row := fun _ => .fault .busError

/-! ### Instructions -/

/-- R_KEY (R216, R225). -/
def execRKey (width : Nat) (k : Fin 8) (s : State) : Host.Outcome State Fault Refusal :=
  .next (hostTransaction width (rowRKey k) s)

/-- W_KEY (R217, R225). -/
def execWKey (width : Nat) (k : Fin 8) (v : Word) (s : State) : Host.Outcome State Fault Refusal :=
  .next (hostTransaction width (rowWKey k v) s)

/-- R_IV (R218, R225). -/
def execRIv (width : Nat) (v : Fin 4) (s : State) : Host.Outcome State Fault Refusal :=
  .next (hostTransaction width (rowRIv v) s)

/-- W_IV (R219, R225). -/
def execWIv (width : Nat) (v : Fin 4) (x : Word) (s : State) : Host.Outcome State Fault Refusal :=
  .next (hostTransaction width (rowWIv v x) s)

/-- R_CSW, the row of CSW[0..3] (R220, R225). -/
def execRCswLo (width : Nat) (x : Fin 4) (s : State) : Host.Outcome State Fault Refusal :=
  .next (hostTransaction width (rowRCsw (ctxLo x)) s)

/-- W_CSW, the row of CSW[0..3] (R221, R225). -/
def execWCswLo (width : Nat) (x : Fin 4) (y : Word) (s : State) : Host.Outcome State Fault Refusal :=
  .next (hostTransaction width (rowWCsw (ctxLo x) y) s)

/-- R_CSW, the row of CSW[4..7] (R220, R225). -/
def execRCswHi (width : Nat) (x : Fin 4) (s : State) : Host.Outcome State Fault Refusal :=
  .next (hostTransaction width (rowRCsw (ctxHi x)) s)

/-- W_CSW, the row of CSW[4..7] (R221, R225). -/
def execWCswHi (width : Nat) (x : Fin 4) (y : Word) (s : State) : Host.Outcome State Fault Refusal :=
  .next (hostTransaction width (rowWCsw (ctxHi x) y) s)

/-- R_CSF, the row of CSF[0..3] (R222, R225). -/
def execRCsfLo (width : Nat) (x : Fin 4) (s : State) : Host.Outcome State Fault Refusal :=
  .next (hostTransaction width (rowRCsf (ctxLo x)) s)

/-- W_CSF, the row of CSF[0..3] (R223, R225). -/
def execWCsfLo (width : Nat) (x : Fin 4) (y : Word) (s : State) : Host.Outcome State Fault Refusal :=
  .next (hostTransaction width (rowWCsf (ctxLo x) y) s)

/-- R_CSF, the row of CSF[4..7] (R222, R225). -/
def execRCsfHi (width : Nat) (x : Fin 4) (s : State) : Host.Outcome State Fault Refusal :=
  .next (hostTransaction width (rowRCsf (ctxHi x)) s)

/-- W_CSF, the row of CSF[4..7] (R223, R225). -/
def execWCsfHi (width : Nat) (x : Fin 4) (y : Word) (s : State) : Host.Outcome State Fault Refusal :=
  .next (hostTransaction width (rowWCsf (ctxHi x) y) s)

/-- BUSERR-UNMAPPED, offsets 0x90 to 0x9C (R224, R225). -/
def execBusErrUnmapped90 (width : Nat) (_a : Access) (_o : BitVec 2) (s : State) : Host.Outcome State Fault Refusal :=
  .next (hostTransaction width rowBusErr s)

/-- BUSERR-UNMAPPED, offsets 0xA0 to 0xBC (R224, R225). -/
def execBusErrUnmappedA0 (width : Nat) (_a : Access) (_o : BitVec 3) (s : State) : Host.Outcome State Fault Refusal :=
  .next (hostTransaction width rowBusErr s)

/-- BUSERR-UNMAPPED, offsets 0xC0 to 0xFC (R224, R225). -/
def execBusErrUnmappedC0 (width : Nat) (_a : Access) (_o : BitVec 4) (s : State) : Host.Outcome State Fault Refusal :=
  .next (hostTransaction width rowBusErr s)

/-- BUSERR-MISALIGNED, OFF[0] = 1 (R224, R225). -/
def execBusErrMisalignedOdd (width : Nat) (_a : Access) (_o : BitVec 7) (s : State) : Host.Outcome State Fault Refusal :=
  .next (hostTransaction width rowBusErr s)

/-- BUSERR-MISALIGNED, OFF[1:0] = 10 (R224, R225). -/
def execBusErrMisalignedEven (width : Nat) (_a : Access) (_o : BitVec 6) (s : State) : Host.Outcome State Fault Refusal :=
  .next (hostTransaction width rowBusErr s)

end Sys2Proof.Machine
end

