-- ==== Sys2Proof/Machine/Interrupts.lean ====
section
/-! DEFINITION. The register rows of DMACR, IMSCR, RISR and MISR (spec/40_register_access.md R208 to R215) and their
instructions. -/

namespace Sys2Proof.Machine

/-! ### Rows -/

/-- R_DMACR (R208). -/
def rowRDmacr : Row := fun s => .done s (some s.dmacr)

/-- W_DMACR (R209). -/
def rowWDmacr (v : Word) : Row := fun s => .done { s with dmacr := v &&& lowTwoMask } none

/-- R_IMSCR (R210). -/
def rowRImscr : Row := fun s => .done s (some s.imscr)

/-- W_IMSCR (R211). -/
def rowWImscr (v : Word) : Row := fun s => .done { s with imscr := v &&& lowTwoMask } none

/-- R_RISR (R212). -/
def rowRRisr : Row := fun s => .done s (some s.risrWord)

/-- W_RISR: no effect (R213). -/
def rowWRisr (_v : Word) : Row := fun s => .done s none

/-- R_MISR (R214). -/
def rowRMisr : Row := fun s => .done s (some s.misrWord)

/-- W_MISR: no effect (R215). -/
def rowWMisr (_v : Word) : Row := fun s => .done s none

/-! ### Instructions -/

/-- R_DMACR (R208, R225). -/
def execRDmacr (width : Nat) (s : State) : Host.Outcome State Fault Refusal :=
  .next (hostTransaction width rowRDmacr s)

/-- W_DMACR (R209, R225). -/
def execWDmacr (width : Nat) (v : Word) (s : State) : Host.Outcome State Fault Refusal :=
  .next (hostTransaction width (rowWDmacr v) s)

/-- R_IMSCR (R210, R225). -/
def execRImscr (width : Nat) (s : State) : Host.Outcome State Fault Refusal :=
  .next (hostTransaction width rowRImscr s)

/-- W_IMSCR (R211, R225). -/
def execWImscr (width : Nat) (v : Word) (s : State) : Host.Outcome State Fault Refusal :=
  .next (hostTransaction width (rowWImscr v) s)

/-- R_RISR (R212, R225). -/
def execRRisr (width : Nat) (s : State) : Host.Outcome State Fault Refusal :=
  .next (hostTransaction width rowRRisr s)

/-- W_RISR (R213, R225). -/
def execWRisr (width : Nat) (v : Word) (s : State) : Host.Outcome State Fault Refusal :=
  .next (hostTransaction width (rowWRisr v) s)

/-- R_MISR (R214, R225). -/
def execRMisr (width : Nat) (s : State) : Host.Outcome State Fault Refusal :=
  .next (hostTransaction width rowRMisr s)

/-- W_MISR (R215, R225). -/
def execWMisr (width : Nat) (v : Word) (s : State) : Host.Outcome State Fault Refusal :=
  .next (hostTransaction width (rowWMisr v) s)

end Sys2Proof.Machine
end

