-- ==== Sys2Proof/Machine/Lifecycle.lean ====
section
/-! DEFINITION. The engine lifecycle operations of the controller (spec/42_lifecycle.md R340 to R352): configure,
loadKey, loadIV, flushFIFOs, enable, disable, isBusy and the DMA and interrupt toggles. `s.gap` stands wherever another
agent may step between two host steps of the operation; the first host step of an operation has none before it. -/

namespace Sys2Proof.Machine

/-- A run of `wr` transactions, each after a gap. -/
def State.wrAll (rows : List Row) (s : State) : State := rows.foldl (fun s row => s.gap.wr row) s

/-- The rows that write a list of key registers (R343). -/
def keyRows (ws : List (Fin 8 × Word)) : List Row := ws.map fun p => rowWKey p.1 p.2

/-- The rows that write a list of IV registers (R344). -/
def ivRows (ws : List (Fin 4 × Word)) : List Row := ws.map fun p => rowWIv p.1 p.2

/-- configure (R342). -/
def opConfigure (cfg : EngineConfig) (s : State) : State :=
  let r1 := s.rd rowRCr
  let r2 := r1.2.gap.rd rowRSr
  let r3 := r2.2.gap.rd rowRDmacr
  let cr := r1.1
  if !quiet cr r2.1 r3.1 then r3.2.gap.finish .configure (.err .engineActive)
  else if needsKeyPrep cfg && !(r3.2.ctl.prepared && ksField cr == ksCode cfg) then
    r3.2.gap.finish .configure (.err .keyPrepRequired)
  else
    let s4 := r3.2.gap.wr (rowWCr (encodeConfig cfg))
    let s5 := s4.withCtl fun c =>
      { c with
        prepared := if ksField cr != ksCode cfg then false else c.prepared
        cfg := some cfg, tracker := none, keyPrepPending := false }
    s5.gap.finish .configure .ok

/-- loadKey (R343). -/
def opLoadKey (key : List WordPair) (s : State) : State :=
  match s.ctl.cfg with
  | none => s.finish .loadKey (.err .notConfigured)
  | some cfg =>
    if key.length ≠ keyPairs cfg then s.finish .loadKey (.err .keySizeMismatch)
    else
      let r1 := s.rd rowRSr
      if r1.1.getLsbD 4 then r1.2.gap.finish .loadKey (.err .busyKeyLoad)
      else
        let r2 := r1.2.gap.rd rowRCr
        let r3 := r2.2.gap.rd rowRDmacr
        if !quiet r2.1 r1.1 r3.1 then r3.2.gap.finish .loadKey (.err .engineActive)
        else
          let s4 := r3.2.wrAll (keyRows (keyWrites cfg key))
          let s5 := s4.withCtl fun c => { c with prepared := false, keyPrepPending := false }
          s5.gap.finish .loadKey .ok

/-- loadIV (R344). -/
def opLoadIV (iv : IVMaterial) (s : State) : State :=
  match s.ctl.cfg with
  | none => s.finish .loadIV (.err .notConfigured)
  | some cfg =>
    if (ivRegs cfg.mode).isEmpty then s.finish .loadIV .ok
    else
      let r1 := s.rd rowRSr
      if r1.1.getLsbD 4 then r1.2.gap.finish .loadIV (.err .busyIVLoad)
      else
        let r2 := r1.2.gap.rd rowRCr
        let r3 := r2.2.gap.rd rowRDmacr
        if !quiet r2.1 r1.1 r3.1 then r3.2.gap.finish .loadIV (.err .engineActive)
        else (r3.2.wrAll (ivRows (ivWrites cfg.mode iv))).gap.finish .loadIV .ok

/-- flushFIFOs (R345). -/
def opFlushFIFOs (s : State) : State :=
  let r1 := s.rd rowRSr
  if r1.1.getLsbD 4 then r1.2.gap.finish .flushFIFOs (.err .busyFlush)
  else
    let r2 := r1.2.gap.rd rowRCr
    if crypen r2.1 then r2.2.gap.finish .flushFIFOs (.err .engineActive)
    else (r2.2.gap.wr (rowWCr (r2.1 ||| fflushMask))).gap.finish .flushFIFOs .ok

/-- enable (R346). -/
def opEnable (s : State) : State :=
  match s.ctl.cfg with
  | none => s.finish .enable (.err .notConfigured)
  | some cfg =>
    if cfg.mode.isAead && s.ctl.tracker.isNone then s.finish .enable (.err .phaseOrder)
    else
      let r1 := s.rd rowRCr
      let s2 := r1.2.gap.wr (rowWCr (r1.1 ||| crypenMask))
      let s3 := if !crypen r1.1 && cfg.mode == .aesKeyPrep then
          s2.withCtl fun c => { c with keyPrepPending := true, prepared := false }
        else s2
      s3.gap.finish .enable .ok

/-- disable (R347). -/
def opDisable (s : State) : State :=
  let r1 := s.rd rowRCr
  let s2 := r1.2.gap.wr (rowWCr (r1.1 &&& ~~~crypenMask))
  (s2.withCtl fun c => { c with keyPrepPending := false }).gap.finish .disable .ok

/-- isBusy (R348). -/
def opIsBusy (s : State) : State :=
  let r1 := s.rd rowRSr
  let s2 := if !r1.1.getLsbD 4 && r1.2.ctl.keyPrepPending then
      r1.2.withCtl fun c => { c with prepared := true, keyPrepPending := false }
    else r1.2
  s2.gap.finish .isBusy (.bool (r1.1.getLsbD 4))

/-- Set or clear the bits `m` of DMACR (R349, R350). -/
def dmaToggle (op : OpName) (m : Word) (b : Bool) (s : State) : State :=
  let r1 := s.rd rowRDmacr
  (r1.2.gap.wr (rowWDmacr (if b then r1.1 ||| m else r1.1 &&& ~~~m))).gap.finish op .ok

/-- setInputDMA (R349). -/
def opSetInputDMA (b : Bool) (s : State) : State := dmaToggle .setInputDMA dienMask b s

/-- setOutputDMA (R350). -/
def opSetOutputDMA (b : Bool) (s : State) : State := dmaToggle .setOutputDMA doenMask b s

/-- setInterruptMask (R351). -/
def opSetInterruptMask (inp out : Bool) (s : State) : State :=
  (s.wr (rowWImscr ((if out then 0x2 else 0) ||| (if inp then 0x1 else 0)))).gap.finish .setInterruptMask .ok

/-- readInterruptStatus (R352). -/
def opReadInterruptStatus (s : State) : State :=
  let r1 := s.rd rowRMisr
  r1.2.gap.finish .readInterruptStatus (.flags (r1.1.getLsbD 0) (r1.1.getLsbD 1))

/-! ### Instructions -/

/-- configure, OP 0 (R342). -/
def execConfigure (cfg : EngineConfig) (s : State) : Host.Outcome State Fault Refusal := .next (opConfigure cfg s)

/-- loadKey, OP 1 (R343). -/
def execLoadKey (key : List WordPair) (s : State) : Host.Outcome State Fault Refusal := .next (opLoadKey key s)

/-- loadIV, OP 2 (R344). -/
def execLoadIV (iv : IVMaterial) (s : State) : Host.Outcome State Fault Refusal := .next (opLoadIV iv s)

/-- flushFIFOs, OP 3 (R345). -/
def execFlushFIFOs (s : State) : Host.Outcome State Fault Refusal := .next (opFlushFIFOs s)

/-- enable, OP 4 (R346). -/
def execEnable (s : State) : Host.Outcome State Fault Refusal := .next (opEnable s)

/-- disable, OP 5 (R347). -/
def execDisable (s : State) : Host.Outcome State Fault Refusal := .next (opDisable s)

/-- isBusy, OP 6 (R348). -/
def execIsBusy (s : State) : Host.Outcome State Fault Refusal := .next (opIsBusy s)

/-- setInputDMA, OP 16 (R349). -/
def execSetInputDMA (b : Bool) (s : State) : Host.Outcome State Fault Refusal := .next (opSetInputDMA b s)

/-- setOutputDMA, OP 17 (R350). -/
def execSetOutputDMA (b : Bool) (s : State) : Host.Outcome State Fault Refusal := .next (opSetOutputDMA b s)

/-- setInterruptMask, OP 18 (R351). -/
def execSetInterruptMask (inp out : Bool) (s : State) : Host.Outcome State Fault Refusal :=
  .next (opSetInterruptMask inp out s)

/-- readInterruptStatus, OP 19 (R352). -/
def execReadInterruptStatus (s : State) : Host.Outcome State Fault Refusal := .next (opReadInterruptStatus s)

/-- OP-RESERVED, the codes 20 to 23: a model refuses them (R148 (d)). -/
def execOpReserved20 (_r : BitVec 2) (_s : State) : Host.Outcome State Fault Refusal := .refused .reservedOperation

/-- OP-RESERVED, the codes 24 to 31: a model refuses them (R148 (d)). -/
def execOpReserved24 (_r : BitVec 3) (_s : State) : Host.Outcome State Fault Refusal := .refused .reservedOperation

end Sys2Proof.Machine
end

