-- ==== Sys2Proof/Machine/Flow.lean ====
section
/-! DEFINITION. The FIFO flow operations (spec/43_fifo_flow.md R400 to R405) and the phase operation
(spec/44_phase.md R431, R432) of the controller. -/

namespace Sys2Proof.Machine

/-- pushWord (R400). -/
def opPushWord (w : Word) (s : State) : State :=
  let r1 := s.rd rowRDmacr
  if dien r1.1 then r1.2.gap.finish .pushWord (.err .dmaConflict)
  else
    let r2 := r1.2.gap.rd rowRSr
    if !r2.1.getLsbD 1 then r2.2.gap.finish .pushWord (.err .inputFull)
    else (r2.2.gap.wr (rowWDin w)).gap.finish .pushWord .ok

/-- popWord (R401). -/
def opPopWord (s : State) : State :=
  let r1 := s.rd rowRDmacr
  if doen r1.1 then r1.2.gap.finish .popWord (.err .dmaConflict)
  else
    let r2 := r1.2.gap.rd rowRSr
    if !r2.1.getLsbD 2 then r2.2.gap.finish .popWord (.err .outputEmpty)
    else
      let r3 := r2.2.gap.rd rowRDout
      r3.2.gap.finish .popWord (.okWord r3.1)

/-- One flow predicate: a fresh SR read and the test of one bit (R402 to R405). -/
def flowPredicate (op : OpName) (bit : Nat) (s : State) : State :=
  let r1 := s.rd rowRSr
  r1.2.gap.finish op (.bool (r1.1.getLsbD bit))

/-- inputNotFull (R402). -/
def opInputNotFull (s : State) : State := flowPredicate .inputNotFull 1 s

/-- inputEmpty (R403). -/
def opInputEmpty (s : State) : State := flowPredicate .inputEmpty 0 s

/-- outputNotEmpty (R404). -/
def opOutputNotEmpty (s : State) : State := flowPredicate .outputNotEmpty 2 s

/-- outputFull (R405). -/
def opOutputFull (s : State) : State := flowPredicate .outputFull 3 s

/-- `Allowed(prev, p)` (R431). -/
def phaseAllowed (prev : Option Phase) (p : Phase) : Bool :=
  match prev, p with
  | none, .init => true
  | some .init, .header => true
  | some .header, .payload => true
  | some .payload, .final => true
  | some .final, .init => true
  | _, _ => false

/-- setPhase (R432, R435). -/
def opSetPhase (p : Phase) (s : State) : State :=
  match s.ctl.cfg with
  | none => s.finish .setPhase (.err .notConfigured)
  | some cfg =>
    if !cfg.mode.isAead then s.finish .setPhase .ok
    else if !phaseAllowed s.ctl.tracker p then s.finish .setPhase (.err .phaseOrder)
    else
      let r1 := s.rd rowRCr
      let r2 := r1.2.gap.rd rowRSr
      let r3 := r2.2.gap.rd rowRDmacr
      if !quiet r1.1 r2.1 r3.1 then r3.2.gap.finish .setPhase (.err .phaseWhileActive)
      else
        let s4 := r3.2.gap.wr (rowWCr ((r1.1 &&& ~~~phMask) ||| (p.code.setWidth 32 <<< 16)))
        (s4.withCtl fun c => { c with tracker := some p }).gap.finish .setPhase .ok

/-! ### Instructions -/

/-- pushWord, OP 7 (R400). -/
def execPushWord (w : Word) (s : State) : Host.Outcome State Fault Refusal := .next (opPushWord w s)

/-- popWord, OP 8 (R401). -/
def execPopWord (s : State) : Host.Outcome State Fault Refusal := .next (opPopWord s)

/-- inputNotFull, OP 9 (R402). -/
def execInputNotFull (s : State) : Host.Outcome State Fault Refusal := .next (opInputNotFull s)

/-- inputEmpty, OP 10 (R403). -/
def execInputEmpty (s : State) : Host.Outcome State Fault Refusal := .next (opInputEmpty s)

/-- outputNotEmpty, OP 11 (R404). -/
def execOutputNotEmpty (s : State) : Host.Outcome State Fault Refusal := .next (opOutputNotEmpty s)

/-- outputFull, OP 12 (R405). -/
def execOutputFull (s : State) : Host.Outcome State Fault Refusal := .next (opOutputFull s)

/-- setPhase, OP 13 (R432). -/
def execSetPhase (p : Phase) (s : State) : Host.Outcome State Fault Refusal := .next (opSetPhase p s)

end Sys2Proof.Machine
end

