-- ==== Sys2Proof/Machine/Context.lean ====
section
/-! DEFINITION. The context operations of the controller: save, restore and the key preparation inside restore
(spec/45_context.md R461 to R465). -/

namespace Sys2Proof.Machine

/-- `poll SR, m, v, n -> ok` inside an operation (R158): at most n reads of SR, each after a gap, up to the first that
matches. -/
def pollSr (m v : Word) : Nat → State → Bool × State
  | 0, s => (false, s)
  | n + 1, s =>
    let r := s.gap.rd rowRSr
    if r.1 &&& m == v then (true, r.2) else pollSr m v n r.2

/-- A run of `rd` transactions, each after a gap, and the values they returned, in order. -/
def State.rdAll : List Row → State → List Word × State
  | [], s => ([], s)
  | row :: rows, s =>
    let r := s.gap.rd row
    let rest := r.2.rdAll rows
    (r.1 :: rest.1, rest.2)

/-- The rows that read IV[0..3] in index order. -/
def ivReadRows : List Row := [rowRIv 0, rowRIv 1, rowRIv 2, rowRIv 3]

/-- The rows that read CSW[0..7] in index order. -/
def cswReadRows : List Row :=
  [rowRCsw 0, rowRCsw 1, rowRCsw 2, rowRCsw 3, rowRCsw 4, rowRCsw 5, rowRCsw 6, rowRCsw 7]

/-- The rows that read CSF[0..7] in index order. -/
def csfReadRows : List Row :=
  [rowRCsf 0, rowRCsf 1, rowRCsf 2, rowRCsf 3, rowRCsf 4, rowRCsf 5, rowRCsf 6, rowRCsf 7]

/-- The context words of a snapshot: read for GCM and CCM only (R461). -/
def readContext (aead : Bool) (s : State) : Option ContextWords × State :=
  if aead then
    let w := s.rdAll cswReadRows
    let f := w.2.rdAll csfReadRows
    (some { working := argVec8 w.1 0, final := argVec8 f.1 0 }, f.2)
  else (none, s)

/-- The controller after a successful save: the id is used up and outstanding, and the session is closed (R461). -/
def ctlAfterSave (c : Controller) : Controller :=
  { c with
    outstanding := insertId c.nextId c.outstanding, nextId := c.nextId + 1
    cfg := none, tracker := none, keyPrepPending := false }

/-- save from its drain poll on (R461 steps 3 to 5): `dm0` is DMACR as save read it. -/
def saveCapture (cfg : EngineConfig) (dm0 : Word) (s : State) : State :=
  let s1 := s.gap.wr (rowWDmacr (dm0 &&& ~~~(dienMask ||| doenMask)))
  let r2 := s1.gap.rd rowRCr
  let s3 := r2.2.gap.wr (rowWCr (r2.1 &&& ~~~crypenMask))
  let r4 := s3.rdAll ivReadRows
  let r5 := readContext cfg.mode.isAead r4.2
  let snap : ContextSnapshot :=
    { id := r5.2.ctl.nextId, cfgBits := r2.1 &&& snapMask, iv := argVec4 r4.1 0, ctx := r5.1 }
  let s6 := r5.2.withCtl ctlAfterSave
  { s6 with snaps := s6.snaps ++ [snap] }.gap.finish .save (.okSnapshot snap)

/-- save (R461, R462, R463). -/
def opSave (s : State) : State :=
  match s.ctl.cfg with
  | none => s.finish .save (.err .notConfigured)
  | some cfg =>
    if cfg.mode.isAead && s.ctl.tracker == some .final then s.finish .save (.err .saveInFinal)
    else
      let r1 := s.rd rowRDmacr
      let s2 := r1.2.gap.wr (rowWDmacr (r1.1 &&& ~~~dienMask))
      let p := pollSr 0x15 0x01 s2.params.drainBudget s2
      if p.1 then saveCapture cfg r1.1 p.2
      else (p.2.gap.wr (rowWDmacr r1.1)).gap.finish .save (.err .drainTimeout)

/-- The key preparation configuration of RestoreKeyPrep: AES-KeyPrep with the same key size and width (R465). -/
def keyPrepBits (bits : Word) : Word := (bits &&& ~~~(0x00080038 : Word)) ||| 0x00000038

/-- RestoreKeyPrep (R465): whether it succeeded, and the state after it. -/
def restoreKeyPrep (bits : Word) (s : State) : Bool × State :=
  let s1 := s.gap.wr (rowWCr (keyPrepBits bits ||| crypenMask))
  let p := pollSr 0x10 0x00 s1.params.drainBudget s1
  if p.1 then
    (true, (p.2.gap.wr (rowWCr bits)).withCtl fun c => { c with prepared := true })
  else
    let s2 := p.2.gap.wr (rowWCr (keyPrepBits bits))
    let s3 := s2.gap.wr (rowWCr bits)
    (false, s3.withCtl fun c => { c with cfg := none, tracker := none })

/-- The context register writes of a snapshot: CSW[0..7], then CSF[0..7], or none (R464 step 3). -/
def contextRows (ctx : Option ContextWords) : List Row :=
  match ctx with
  | none => []
  | some c => ((List.finRange 8).map fun i => rowWCsw i (get8 c.working i))
      ++ ((List.finRange 8).map fun i => rowWCsf i (get8 c.final i))

/-- The register writes of restore's steps 2 and 3, in order (R464). -/
def restoreRows (cfg : EngineConfig) (snap : ContextSnapshot) (key : List WordPair) : List Row :=
  keyRows (keyWrites cfg key) ++ ((List.finRange 4).map fun i => rowWIv i (get4 snap.iv i)) ++ contextRows snap.ctx

/-- restore from its step 4 on: enable, and open the session at the controller (R464). -/
def restoreFinish (cfg : EngineConfig) (snap : ContextSnapshot) (s : State) : State :=
  let s1 := s.gap.wr (rowWCr (snap.cfgBits ||| crypenMask))
  let s2 := s1.withCtl fun c =>
    { c with
      outstanding := removeId snap.id c.outstanding
      cfg := some cfg
      tracker := if cfg.mode.isAead then some (phaseOf snap.cfgBits) else none
      keyPrepPending := cfg.mode == .aesKeyPrep }
  s2.gap.finish .restore .ok

/-- restore for an outstanding snapshot whose configuration is `cfg` (R464). -/
def restoreBody (cfg : EngineConfig) (snap : ContextSnapshot) (key : List WordPair) (s : State) : State :=
  if key.length ≠ keyPairs cfg then s.finish .restore (.err .keySizeMismatch)
  else
    let r1 := s.rd rowRSr
    let r2 := r1.2.gap.rd rowRDmacr
    if !(drainedSr r1.1 && r2.1 &&& (dienMask ||| doenMask) == 0) then
      r2.2.gap.finish .restore (.err .engineActive)
    else
      let s3 := r2.2.gap.wr (rowWCr snap.cfgBits)
      let s4 := s3.wrAll (restoreRows cfg snap key)
      let s5 := s4.withCtl fun c => { c with prepared := false }
      if needsKeyPrep cfg then
        let r6 := restoreKeyPrep snap.cfgBits s5
        if r6.1 then restoreFinish cfg snap r6.2 else r6.2.gap.finish .restore (.err .keyPrepTimeout)
      else restoreFinish cfg snap s5

/-- The configuration of a valid snapshot (R460): a successful save() returned it, so that the host holds it, and its id is
outstanding. None where it is not valid (log entry 13). -/
def validConfig (snap : ContextSnapshot) (s : State) : Option EngineConfig :=
  if snap.id ∈ s.ctl.outstanding ∧ snap ∈ s.snaps then decodeConfig snap.cfgBits else none

/-- restore (R464): what is no valid snapshot, a partial one among them, is refused with SnapshotConsumed before any
transaction (R460, R466, U4). -/
def opRestore (arg : Option ContextSnapshot) (key : List WordPair) (s : State) : State :=
  match arg with
  | none => s.finish .restore (.err .snapshotConsumed)
  | some snap =>
    match validConfig snap s with
    | none => s.finish .restore (.err .snapshotConsumed)
    | some cfg => restoreBody cfg snap key s

/-! ### Instructions -/

/-- save, OP 14 (R461). -/
def execSave (s : State) : Host.Outcome State Fault Refusal := .next (opSave s)

/-- restore, OP 15 (R464). -/
def execRestore (snap : Option ContextSnapshot) (key : List WordPair) (s : State) : Host.Outcome State Fault Refusal :=
  .next (opRestore snap key s)

end Sys2Proof.Machine
end

