-- ==== Sys2Proof/Machine/Dispatch.lean ====
section
/-! DEFINITION. The dispatch: one arm for each constructor of Instr, each one direct call of the instruction's own
meaning. -/

namespace Sys2Proof.Machine

/-- The meaning of an instruction. -/
def exec (i : Instr) (s : State) : Host.Outcome State Fault Refusal :=
  match i with
  | .rCr n => Sys2Proof.Machine.execRCr n s
  | .wCr n v => Sys2Proof.Machine.execWCr n v s
  | .rSr n => Sys2Proof.Machine.execRSr n s
  | .wSr n v => Sys2Proof.Machine.execWSr n v s
  | .rDin n => Sys2Proof.Machine.execRDin n s
  | .wDin n w => Sys2Proof.Machine.execWDin n w s
  | .rDout n => Sys2Proof.Machine.execRDout n s
  | .wDout n v => Sys2Proof.Machine.execWDout n v s
  | .rDmacr n => Sys2Proof.Machine.execRDmacr n s
  | .wDmacr n v => Sys2Proof.Machine.execWDmacr n v s
  | .rImscr n => Sys2Proof.Machine.execRImscr n s
  | .wImscr n v => Sys2Proof.Machine.execWImscr n v s
  | .rRisr n => Sys2Proof.Machine.execRRisr n s
  | .wRisr n v => Sys2Proof.Machine.execWRisr n v s
  | .rMisr n => Sys2Proof.Machine.execRMisr n s
  | .wMisr n v => Sys2Proof.Machine.execWMisr n v s
  | .rKey n k => Sys2Proof.Machine.execRKey n k s
  | .wKey n k v => Sys2Proof.Machine.execWKey n k v s
  | .rIv n v => Sys2Proof.Machine.execRIv n v s
  | .wIv n v x => Sys2Proof.Machine.execWIv n v x s
  | .rCswLo n x => Sys2Proof.Machine.execRCswLo n x s
  | .wCswLo n x y => Sys2Proof.Machine.execWCswLo n x y s
  | .rCswHi n x => Sys2Proof.Machine.execRCswHi n x s
  | .wCswHi n x y => Sys2Proof.Machine.execWCswHi n x y s
  | .rCsfLo n x => Sys2Proof.Machine.execRCsfLo n x s
  | .wCsfLo n x y => Sys2Proof.Machine.execWCsfLo n x y s
  | .rCsfHi n x => Sys2Proof.Machine.execRCsfHi n x s
  | .wCsfHi n x y => Sys2Proof.Machine.execWCsfHi n x y s
  | .busErrUnmapped90 n a o => Sys2Proof.Machine.execBusErrUnmapped90 n a o s
  | .busErrUnmappedA0 n a o => Sys2Proof.Machine.execBusErrUnmappedA0 n a o s
  | .busErrUnmappedC0 n a o => Sys2Proof.Machine.execBusErrUnmappedC0 n a o s
  | .busErrMisalignedOdd n a o => Sys2Proof.Machine.execBusErrMisalignedOdd n a o s
  | .busErrMisalignedEven n a o => Sys2Proof.Machine.execBusErrMisalignedEven n a o s
  | .configure cfg => Sys2Proof.Machine.execConfigure cfg s
  | .loadKey key => Sys2Proof.Machine.execLoadKey key s
  | .loadIV iv => Sys2Proof.Machine.execLoadIV iv s
  | .flushFIFOs => Sys2Proof.Machine.execFlushFIFOs s
  | .enable => Sys2Proof.Machine.execEnable s
  | .disable => Sys2Proof.Machine.execDisable s
  | .isBusy => Sys2Proof.Machine.execIsBusy s
  | .pushWord w => Sys2Proof.Machine.execPushWord w s
  | .popWord => Sys2Proof.Machine.execPopWord s
  | .inputNotFull => Sys2Proof.Machine.execInputNotFull s
  | .inputEmpty => Sys2Proof.Machine.execInputEmpty s
  | .outputNotEmpty => Sys2Proof.Machine.execOutputNotEmpty s
  | .outputFull => Sys2Proof.Machine.execOutputFull s
  | .setPhase p => Sys2Proof.Machine.execSetPhase p s
  | .save => Sys2Proof.Machine.execSave s
  | .restore snap key => Sys2Proof.Machine.execRestore snap key s
  | .setInputDMA b => Sys2Proof.Machine.execSetInputDMA b s
  | .setOutputDMA b => Sys2Proof.Machine.execSetOutputDMA b s
  | .setInterruptMask inp out => Sys2Proof.Machine.execSetInterruptMask inp out s
  | .readInterruptStatus => Sys2Proof.Machine.execReadInterruptStatus s
  | .opReserved20 r => Sys2Proof.Machine.execOpReserved20 r s
  | .opReserved24 r => Sys2Proof.Machine.execOpReserved24 r s

end Sys2Proof.Machine
end

