-- ==== Sys2Proof/Machine/Fetch.lean ====
section
/-! DEFINITION. How the next step is chosen (spec/20_memory.md R109, spec/70_reset_and_hazards.md R556, R557): the schedule
says whose turn it is, the host takes the next line of its program, and the pseudo-instructions of
spec/30_encoding.md R158 unfold into their transactions one host step at a time. -/

namespace Sys2Proof.Machine

/-- What the next step is. -/
inductive Action where
  /-- an agent's step, or a host-local step of the program: the next state -/
  | moved (s : State)
  /-- the host runs an instruction, at the state from which its meaning starts -/
  | run (i : Instr) (s : State)
  /-- the run has ended (R557) -/
  | ended
  /-- the host's line names no instruction -/
  | refused (r : Refusal)

/-- The record of a read at an offset, width 4: `rd` (R157). -/
def readRecord (off : BitVec 8) : Record := .bus (off.setWidth 9) 0 0

/-- The record of a write at an offset, width 4: `wr` (R157). -/
def writeRecord (off : BitVec 8) (v : Word) : Record := .bus (0x100 + off.setWidth 9) 0 v

/-- Run the instruction of a record. The one record refused is a configure of a reserved configuration (R153, R159). -/
def runRecord (r : Record) (s : State) : Action :=
  match decode r with
  | .ok i => .run i s
  | .error _ => .refused .noSuchConfiguration

/-- The value the host's last bus read returned: the `x` a pseudo-instruction has bound (R158). -/
def State.lastRead (s : State) : Word := s.reads.getLastD 0

/-- Bind the `ok` of a poll: it goes to the host's record of them (R158). -/
def State.bindOk (ok : Bool) (s : State) : State := { s with oks := s.oks ++ [ok] }

/-- The host's step for the line at the head of its program; `s` is the state with that line taken off. A line that
restores a snapshot the host does not hold is a restore of no snapshot (R460, R464, U4; log entry 17). -/
def lineAction (l : Line) (s : State) : Action :=
  match l with
  | .record r => runRecord r s
  | .setb off m => runRecord (readRecord off) { s with prog := .wrOr off m :: s.prog }
  | .clrb off m => runRecord (readRecord off) { s with prog := .wrAnd off m :: s.prog }
  | .wrOr off m => runRecord (writeRecord off (s.lastRead ||| m)) s
  | .wrAnd off m => runRecord (writeRecord off (s.lastRead &&& ~~~m)) s
  | .poll off m v n =>
    match n with
    | 0 => .moved (s.bindOk false)
    | left + 1 => runRecord (readRecord off) { s with prog := .pollTest off m v left s.reads.length :: s.prog }
  | .pollTest off m v left seen =>
    if decide (seen < s.reads.length) && s.lastRead &&& m == v then .moved (s.bindOk true)
    else .moved { s with prog := .poll off m v left :: s.prog }
  | .restoreHeld id key =>
    .run (.restore (s.snaps.find? fun snap => snap.id == id) key) s
  | .blockReset => .moved (blockReset s)

/-- The host's step: its next line, or, when its program is exhausted, the engine step that is still enabled (R556).
Where there is none the host's turn passes, and the run ends with the schedule (R557): no DMA turn that the schedule
holds is lost, and that the DMA agents get none after it is the model's choice (DESIGN CHOICE, log entry 10). -/
def hostAction (s : State) : Action :=
  match s.prog with
  | l :: rest => lineAction l { s with prog := rest }
  | [] =>
    match engineStep s with
    | some s' => .moved s'
    | none => if s.sched.isEmpty then .ended else .moved s

/-- The next action: the turn at the head of the schedule, or the host's where the schedule says nothing (R109; log
entry 3). -/
def nextAction (s : State) : Action :=
  match s.sched with
  | [] => hostAction s
  | .host :: rest => hostAction { s with sched := rest }
  | .engine :: rest => .moved (agentStep .engine { s with sched := rest })
  | .dmaIn :: rest => .moved (agentStep .dmaIn { s with sched := rest })
  | .dmaOut :: rest => .moved (agentStep .dmaOut { s with sched := rest })

/-- The schedule with the other agents' turns before the host's next one dropped. -/
def hostFirst (sched : List Turn) : List Turn := sched.dropWhile (· != .host)

/-- Place a record as the next line of the host's program, in the place of the line that stood there, and make the next
step the host's (log entry 9). -/
def placeRecord (s : State) (r : Record) : State :=
  { s with prog := .record r :: s.prog.drop 1, sched := hostFirst s.sched }

end Sys2Proof.Machine
end

