-- ==== Sys2Proof/Machine/Step.lean ====
section
/-! DEFINITION. One step of the whole machine, with its three outcomes, and the place where the next instruction is
fetched from. -/

namespace Sys2Proof.Machine

/-- One step: the agent whose turn it is moves, or the host runs its next instruction (R109, R556, R557). -/
def step (s : State) : Host.Outcome State Fault Refusal :=
  match nextAction s with
  | .moved s' => .next s'
  | .run i s' => exec i s'
  | .ended => .fault .endOfRun
  | .refused r => .refused r

/-- The state with the instruction of a table word as the host's next line, and the next step the host's. -/
def State.withFetchWord (s : State) (nbits w : Nat) : State := placeRecord s (recordOfTableWord nbits w)

end Sys2Proof.Machine
end

