-- ==== Sys2Proof/Safety.lean ====
section
/-! DEFINITION. What counts as a good state and a safe run, in the terms the statements use: the premise `faults = ∅` of
spec/60_exceptions.md R501, the invariant of the block (spec/10_state.md R58, R59, R61 to R64), and the controller's
own invariant (spec/42_lifecycle.md R348). -/

namespace Sys2Proof.Machine

/-- The premise every claim of the spec takes (R64, R501): no model fault has been raised. -/
abbrev State.faultFree (s : State) : Prop := s.faults = []

/-- CR holds a value that a CR write can store: no reserved bit, no reserved configuration (R39, R148, R201). -/
abbrev crLegal (cr : Word) : Prop := cr &&& ~~~(cfgMask ||| phMask ||| crypenMask) = 0 ∧ reservedConfig cr = false

/-- The pass in flight agrees with the configuration, with the words it consumed and with the room it was promised
(R61, R270 to R278). -/
def passLegal (s : State) : Prop :=
  match s.pass with
  | none => s.inflight = []
  | some (.data bo) =>
    shape s.params s.cr s.finalDone = some (.data, s.inflight.length, bo)
      ∧ s.outQ.length + bo ≤ s.params.outDepth ∧ keyMissing s = false
  | some .keyPrep => crMode s.cr = some .aesKeyPrep ∧ s.inflight = [] ∧ s.decKeyReady = false
  | some .init => (crMode s.cr).any Mode.isAead = true ∧ phaseOf s.cr = .init ∧ s.inflight = []
  | some .tag =>
    (crMode s.cr).any Mode.isAead = true ∧ phaseOf s.cr = .final ∧ s.finalDone = false
      ∧ (s.inflight.length = 0 ∨ s.inflight.length = 4)

/-- The block's invariant: legal parameters, legal registers, bounded FIFOs, `busy` iff a pass is in flight, no pass
while disabled, a legal pass, `finalDone` only in the Final phase, and a canonical fault set. -/
structure BlockInv (s : State) : Prop where
  params_ok : s.params.ok
  cr_legal : crLegal s.cr
  dmacr_legal : s.dmacr &&& ~~~lowTwoMask = 0
  imscr_legal : s.imscr &&& ~~~lowTwoMask = 0
  inQ_bound : s.inQ.length ≤ s.params.inDepth
  outQ_bound : s.outQ.length ≤ s.params.outDepth
  busy_iff : s.busy = s.pass.isSome
  busy_enabled : s.busy = true → crypen s.cr = true
  pass_legal : passLegal s
  final_phase : s.finalDone = true → phaseOf s.cr = .final
  faults_sorted : s.faults.Pairwise fun a b => a.code < b.code

/-- The bookkeeping of snapshots: the outstanding ids rise and have all been given (R66, R461), and every snapshot the
host holds carries a given id and configuration bits that CR could hold (R67, R153). -/
structure IdsInv (s : State) : Prop where
  rising : s.ctl.outstanding.Pairwise (· < ·)
  given : ∀ n ∈ s.ctl.outstanding, n < s.ctl.nextId
  held : ∀ snap ∈ s.snaps,
    snap.id < s.ctl.nextId ∧ snap.cfgBits &&& ~~~snapMask = 0 ∧ reservedConfig snap.cfgBits = false

/-- The invariant every step keeps. -/
structure StateInv (s : State) : Prop where
  block : BlockInv s
  ids : IdsInv s

/-- The controller's record of the key preparation is true of the engine, and its session is the one CR is configured
for (R348): the invariant that the controller operations keep while no register transaction bypasses them. -/
structure CtlInv (s : State) : Prop where
  session : ∀ cfg, s.ctl.cfg = some cfg → crMode s.cr = some cfg.mode
  prepared : s.ctl.prepared = true → s.decKeyReady = true
  pending : s.ctl.keyPrepPending = true →
    crMode s.cr = some .aesKeyPrep ∧ (s.decKeyReady = true ∨ s.pass = some .keyPrep)

/-- `Quiet` of R341, over what CR, SR and DMACR would read now. -/
abbrev State.quietNow (s : State) : Bool := quiet s.cr s.srWord s.dmacr

/-- No agent other than the host has an enabled step (R270, R280, R281). -/
abbrev State.settled (s : State) : Prop := engineStep s = none ∧ dmaInStep s = none ∧ dmaOutStep s = none

/-- The notifications a step from `before` to `after` owes: one for each masked interrupt status bit that changed, with
the new level, IN before OUT (R282). -/
def notifications (before after : State) : List Event :=
  (if before.misrBit .input = after.misrBit .input then [] else [.notify .input (after.misrBit .input)])
    ++ (if before.misrBit .output = after.misrBit .output then [] else [.notify .output (after.misrBit .output)])

/-- Whether an entry of the event history is a notification (R282). -/
def Event.isNotify : Event → Bool
  | .notify _ _ => true
  | .dmaIn _ | .dmaOut _ | .passStart _ | .passDone _ | .abort _ | .hostResult _ _ => false

/-- The controller's notification stream: the notifications of the event history, in order, none merged or dropped (R353,
R504). -/
def State.notificationStream (s : State) : List Event := s.events.filter Event.isNotify

/-- Whether an entry of the event history is one that an engine or DMA step emits: not an abort, which is part of a CR
write (R277), and not the result of an operation (R340). -/
def Event.fromAgent : Event → Bool
  | .notify _ _ | .dmaIn _ | .dmaOut _ | .passStart _ | .passDone _ => true
  | .abort _ | .hostResult _ _ => false

/-- What DMA agents alone can do from `u` to `t` (R280, R281): words go from the source's head to the input FIFO's tail
and from the output FIFO's head to the sink's tail, a detached direction moves nothing, and nothing else changes but the
event history and the model's schedule. -/
structure DmaMoves (u t : State) : Prop where
  rest : t = { u with inQ := t.inQ, outQ := t.outQ, src := t.src, snk := t.snk, events := t.events, sched := t.sched }
  input : ∃ ws, u.src = ws ++ t.src ∧ t.inQ = u.inQ ++ ws
  output : ∃ ws, u.outQ = ws ++ t.outQ ∧ t.snk = u.snk ++ ws
  input_detached : dien u.dmacr = false → t.src = u.src
  output_detached : doen u.dmacr = false → t.snk = u.snk
  events : ∃ es, t.events = u.events ++ es ∧ es.all Event.fromAgent = true
  detached : dien u.dmacr = false → doen u.dmacr = false → t = { u with sched := t.sched }

/-- What the agents other than the host can do from `u` to `t`, in any number of steps: CR, DMACR, IMSCR, the key
registers, the controller and what the host holds stay (R113, R270), the one fault they can record is KeyNotPrepared (R505),
they only append to the history, they do nothing but DMA while Quiet holds (R341), and they do nothing at all where no step
of theirs is enabled. The last clause says which state they reach: `t` is what some turns of the engine and of the two DMA
agents, one after another, make of `u` (R109), but for the model's schedule. -/
structure AgentMoves (u t : State) : Prop where
  host : t = { u with
    iv := t.iv, csw := t.csw, csf := t.csf, inQ := t.inQ, outQ := t.outQ, busy := t.busy, pass := t.pass
    inflight := t.inflight, decKeyReady := t.decKeyReady, finalDone := t.finalDone, faults := t.faults
    events := t.events, src := t.src, snk := t.snk, sched := t.sched }
  faults : t.faults = u.faults ∨ t.faults = insertFault .keyNotPrepared u.faults
  events : ∃ es, t.events = u.events ++ es ∧ es.all Event.fromAgent = true
  quiet : u.quietNow = true → DmaMoves u t
  settled : u.settled → t = { u with sched := t.sched }
  steps : ∃ ts : List Turn, (∀ a ∈ ts, a ≠ .host)
    ∧ t = { ts.foldl (fun v a => agentStep a v) u with sched := t.sched }

/-- What the engine reads of CR and of the key registers for a call of the core, over the tables of R143 to R147: the mode, the
data width, the key size (absent for the DES family, R273), the direction, the phase, and the key registers, where one that
R150 does not give the configuration is passed as 0 (law (d) of R283; that it is passed as 0 is the model's, log entry 6). -/
structure CoreReads (cr : Word) (key : Vector Word 8) (m : Mode) (dt : DataWidth) (ks : Option KeySize) (dir : Dir)
    (ph : Phase) (key' : Vector Word 8) : Prop where
  mode : [Mode.tdesEcb, .tdesCbc, .desEcb, .desCbc, .aesEcb, .aesCbc, .aesCtr, .aesKeyPrep, .aesGcm, .aesCcm][
    (cr.extractLsb' 19 1 ++ cr.extractLsb' 3 3).toNat]? = some m
  width : [DataWidth.w32, .w16, .w8, .w1][(cr.extractLsb' 6 2).toNat]? = some dt
  keySize : ks = if m = .tdesEcb ∨ m = .tdesCbc ∨ m = .desEcb ∨ m = .desCbc then none
    else [KeySize.k128, .k192, .k256][(cr.extractLsb' 8 2).toNat]?
  keySize_legal : m ≠ .tdesEcb → m ≠ .tdesCbc → m ≠ .desEcb → m ≠ .desCbc → ks.isSome = true
  direction : dir = if cr.getLsbD 2 = true then .dec else .enc
  phase : [Phase.init, .header, .payload, .final][(cr.extractLsb' 16 2).toNat]? = some ph
  keys : ∀ i : Fin 8, key'[i.val] = if keyUsed m ks i.val = true then key[i.val] else 0

/-- `m >= 0b1010 or (AESfam(m) and KEYSIZE = 0b11)` of R201, over the stored value and the codes of R143: the AES-family
codes are 4 to 9. -/
abbrev reservedCr (new : Word) : Prop :=
  let m := (new.extractLsb' 19 1 ++ new.extractLsb' 3 3).toNat
  10 ≤ m ∨ (4 ≤ m ∧ new.extractLsb' 8 2 = 3)

/-- `old.CRYPEN = 1 and not Drained` of R201. -/
abbrev State.activeNow (s : State) : Prop := s.cr.getLsbD 15 = true ∧ ¬(s.inQ = [] ∧ s.outQ = [] ∧ s.busy = false)

/-- A CR write of `v` that passes every check of R201. -/
abbrev crWriteLegal (v : Word) (s : State) : Prop :=
  ¬reservedCr (v &&& 0x000B83FC)
    ∧ (s.activeNow → s.cr &&& 0x000803FC = v &&& 0x000803FC ∧ s.cr &&& 0x00030000 = v &&& 0x00030000)
    ∧ ¬(v.getLsbD 14 = true ∧ s.busy = true)

/-- Whether an entry of the event history is the result of an operation. -/
def Event.isResult : Event → Bool
  | .hostResult _ _ => true
  | .notify _ _ | .dmaIn _ | .dmaOut _ | .passStart _ | .passDone _ | .abort _ => false

end Sys2Proof.Machine

namespace Sys2Proof

open Machine (OpName)

/-- The operation an OP instruction names (R155); a transaction and a reserved code name none. -/
def Instr.opName : Instr → Option OpName
  | .rCr _ | .wCr _ _ | .rSr _ | .wSr _ _ | .rDin _ | .wDin _ _ | .rDout _ | .wDout _ _
  | .rDmacr _ | .wDmacr _ _ | .rImscr _ | .wImscr _ _ | .rRisr _ | .wRisr _ _ | .rMisr _ | .wMisr _ _
  | .rKey _ _ | .wKey _ _ _ | .rIv _ _ | .wIv _ _ _
  | .rCswLo _ _ | .wCswLo _ _ _ | .rCswHi _ _ | .wCswHi _ _ _
  | .rCsfLo _ _ | .wCsfLo _ _ _ | .rCsfHi _ _ | .wCsfHi _ _ _
  | .busErrUnmapped90 _ _ _ | .busErrUnmappedA0 _ _ _ | .busErrUnmappedC0 _ _ _
  | .busErrMisalignedOdd _ _ _ | .busErrMisalignedEven _ _ _ => none
  | .configure _ => some .configure
  | .loadKey _ => some .loadKey
  | .loadIV _ => some .loadIV
  | .flushFIFOs => some .flushFIFOs
  | .enable => some .enable
  | .disable => some .disable
  | .isBusy => some .isBusy
  | .pushWord _ => some .pushWord
  | .popWord => some .popWord
  | .inputNotFull => some .inputNotFull
  | .inputEmpty => some .inputEmpty
  | .outputNotEmpty => some .outputNotEmpty
  | .outputFull => some .outputFull
  | .setPhase _ => some .setPhase
  | .save => some .save
  | .restore _ _ => some .restore
  | .setInputDMA _ => some .setInputDMA
  | .setOutputDMA _ => some .setOutputDMA
  | .setInterruptMask _ _ => some .setInterruptMask
  | .readInterruptStatus => some .readInterruptStatus
  | .opReserved20 _ | .opReserved24 _ => none

/-- The host runs this instruction and not a register transaction that bypasses the controller (R8). -/
def Instr.isOp : Instr → Bool
  | .rCr _ | .wCr _ _ | .rSr _ | .wSr _ _ | .rDin _ | .wDin _ _ | .rDout _ | .wDout _ _
  | .rDmacr _ | .wDmacr _ _ | .rImscr _ | .wImscr _ _ | .rRisr _ | .wRisr _ _ | .rMisr _ | .wMisr _ _
  | .rKey _ _ | .wKey _ _ _ | .rIv _ _ | .wIv _ _ _
  | .rCswLo _ _ | .wCswLo _ _ _ | .rCswHi _ _ | .wCswHi _ _ _
  | .rCsfLo _ _ | .wCsfLo _ _ _ | .rCsfHi _ _ | .wCsfHi _ _ _
  | .busErrUnmapped90 _ _ _ | .busErrUnmappedA0 _ _ _ | .busErrUnmappedC0 _ _ _
  | .busErrMisalignedOdd _ _ _ | .busErrMisalignedEven _ _ _ => false
  | .configure _ | .loadKey _ | .loadIV _ | .flushFIFOs | .enable | .disable | .isBusy
  | .pushWord _ | .popWord | .inputNotFull | .inputEmpty | .outputNotEmpty | .outputFull | .setPhase _
  | .save | .restore _ _ | .setInputDMA _ | .setOutputDMA _ | .setInterruptMask _ _ | .readInterruptStatus
  | .opReserved20 _ | .opReserved24 _ => true

end Sys2Proof
end

