-- ==== Sys2Proof/Certificates/Slice0/Obligations.lean ====
section
/-! DEFINITION. The statements for the provers: what the spec's numbered rules say the machine does. The agents beside the
host may take any turns between two host steps of one controller operation, so what a statement says of an operation holds
for every schedule (log entries 3 and 4); it names the states between with `AgentMoves` and `DmaMoves` of Safety.lean. -/

open Sys2Proof Sys2Proof.Machine

/-! ### Encoding -/

/-- R140, R142, R152, R155, R160: decoding what `encode` writes for a well-formed instruction gives it back. How the
argument records are laid out is the model's choice (log entry 8). -/
def Obligations.DecodeOfEncodeGivesTheInstruction : Prop :=
  ∀ i : Instr, i.wf = true → decode (encode i) = .ok i

/-- R140, R141: encoding what a BUS record decodes to gives the record back, so no bit of T, of WIDTH or of a write's
DATA is dropped. WIDTH 4 has two codes and a read has no DATA (log entry 8). -/
def Obligations.EncodeOfDecodedBusRecordGivesTheRecord : Prop :=
  ∀ (sel : BitVec 9) (code : BitVec 8) (data : Word) (i : Instr), decode (.bus sel code data) = .ok i →
    encode i = .bus sel (if code = 4 then 0 else code) (if sel.getLsbD 8 = true then data else 0)

/-- R141: every 9-bit T selects exactly one row of the opcode table, and every BUS record with such a T decodes. -/
def Obligations.EverySelectorSelectsExactlyOneRow : Prop :=
  (∀ t : BitVec 9, (busRows.filter (·.selects t)).length = 1)
    ∧ ∀ (t : BitVec 9) (code : BitVec 8) (data : Word), ∃ i, decode (.bus t code data) = .ok i

/-- R140, R142, R152, R155: words written out from the spec's encodings of T, of the operation codes, of a configuration and
of a phase decode to their instructions. That WIDTH code 0 is width 4, and that an argument record is a list of words, is
the model's (DESIGN CHOICE, log entry 8). -/
def Obligations.HandWrittenWordsDecode : Prop :=
  decode (.bus 0x108 0 0x00112233) = .ok (.wDin 4 0x00112233)
    ∧ decode (.bus 0x00C 0 0) = .ok (.rDout 4)
    ∧ decode (.bus 0x100 0 0x00008038) = .ok (.wCr 4 0x00008038)
    ∧ decode (.bus 0x13C 0 7) = .ok (.wKey 4 7 7)
    ∧ decode (.bus 0x048 0 0) = .ok (.rIv 4 2)
    ∧ decode (.bus 0x16C 0 1) = .ok (.wCswHi 4 3 1)
    ∧ decode (.bus 0x080 0 0) = .ok (.rCsfHi 4 0)
    ∧ decode (.bus 0x090 0 0) = .ok (.busErrUnmapped90 4 .read 0)
    ∧ decode (.bus 0x008 1 0) = .ok (.rDin 1)
    ∧ decode (.op 0 [0x000002AC]) =
        .ok (.configure { mode := .aesCbc, width := .w8, keySize := some .k256, dir := .dec })
    ∧ decode (.op 13 [1]) = .ok (.setPhase .header)

/-- R148 (d), R155: the operation codes 20 to 31 name no operation and are refused, whatever their arguments. -/
def Obligations.ReservedOperationsAreRefused : Prop :=
  (∀ (c : BitVec 5) (args : List Word), 20 ≤ c.toNat →
      ∃ i, decode (.op c args) = .ok i ∧ ∀ s, exec i s = .refused .reservedOperation)
    ∧ (∀ r s, exec (.opReserved20 r) s = .refused .reservedOperation)
    ∧ ∀ r s, exec (.opReserved24 r) s = .refused .reservedOperation

/-- R152, R153: `encode` never makes a reserved value, leaves phase, FFLUSH and CRYPEN at 0, and `decode` undoes it; and
every word without a reserved value decodes to the configuration whose `encode` agrees with it on CFG_MASK, KEYSIZE
dropped for the DES family. -/
def Obligations.ConfigurationsEncodeAndDecode : Prop :=
  (∀ cfg : EngineConfig, cfg.wf = true →
      decodeConfig (encodeConfig cfg) = some cfg ∧ ¬reservedCr (encodeConfig cfg)
        ∧ encodeConfig cfg &&& ~~~(0x000803FC : Word) = 0)
    ∧ ∀ bits : Word, ¬reservedCr bits →
        ∃ cfg, decodeConfig bits = some cfg ∧ cfg.wf = true
          ∧ encodeConfig cfg = bits &&& (if cfg.mode.isAes = true then 0x000803FC else 0x000800FC)

/-! ### Steps -/

/-- A step runs the decoded instruction: the host's next record, when it is the host's turn (R109, R557). The state it runs
on has the record taken off the program and the turn off the schedule; there is no program counter (R9). That the program
and the turns are lists, and that the host moves where the schedule is empty, is the model's (DESIGN CHOICE, log entries 3
and 9). -/
def Obligations.StepRunsTheDecodedInstruction : Prop :=
  ∀ (s : State) (r : Record) (ps : List Line) (i : Instr), s.prog = .record r :: ps → decode r = .ok i →
    i.wf = true ∧ (s.sched = [] → step s = exec i { s with prog := ps })
      ∧ ∀ rest, s.sched = .host :: rest → step s = exec i { s with prog := ps, sched := rest }

/-- R158: `setb` and `clrb` are a read of the register and then a write of what was read, with the mask set or cleared, each
a host step of its own. `poll` reads SR until the first value that matches, and at most n times, and binds `ok` to whether
that read occurred; no other agent has a turn here, so SR does not change. The model's own steps that test a value read take
no bus transaction, and `oks` is where it keeps `ok` (log entry 16). -/
def Obligations.PseudoInstructionsAreTheirExpansions : Prop :=
  (∀ (s : State) (off : BitVec 8) (m : Word) (ps : List Line) (i : Instr), s.sched = [] →
      decode (.bus (off.setWidth 9) 0 0) = .ok i →
        (s.prog = .setb off m :: ps → step s = exec i { s with prog := .wrOr off m :: ps })
        ∧ (s.prog = .clrb off m :: ps → step s = exec i { s with prog := .wrAnd off m :: ps })
        ∧ ∀ (x : Word) (j : Instr), s.reads.getLast? = some x →
            (decode (.bus (0x100 + off.setWidth 9) 0 (x ||| m)) = .ok j → s.prog = .wrOr off m :: ps →
              step s = exec j { s with prog := ps })
            ∧ (decode (.bus (0x100 + off.setWidth 9) 0 (x &&& ~~~m)) = .ok j → s.prog = .wrAnd off m :: ps →
              step s = exec j { s with prog := ps }))
    ∧ ∀ (s : State) (m v : Word) (n : Nat) (ps : List Line), s.sched = [] → s.prog = .poll 0x04 m v n :: ps →
        (s.srWord &&& m = v → 1 ≤ n →
            Host.Core.run Sys2Proof.core 2 s = .next { s with
              prog := ps, reads := s.reads ++ [s.srWord], oks := s.oks ++ [true] })
          ∧ (s.srWord &&& m ≠ v →
            Host.Core.run Sys2Proof.core (2 * n + 1) s
              = .next { s with
                  prog := ps, reads := s.reads ++ List.replicate n s.srWord, oks := s.oks ++ [false] })

/-! ### Register transactions -/

/-- R203, R207, R213, R215: a write to SR, DOUT, RISR or MISR leaves every state element unchanged. -/
def Obligations.WritesToReadOnlyRegistersDoNothing : Prop :=
  ∀ (s : State) (v : Word),
    (decode (.bus 0x104 4 v) = .ok (.wSr 4 v) ∧ exec (.wSr 4 v) s = .next s)
      ∧ (decode (.bus 0x10C 4 v) = .ok (.wDout 4 v) ∧ exec (.wDout 4 v) s = .next s)
      ∧ (decode (.bus 0x118 4 v) = .ok (.wRisr 4 v) ∧ exec (.wRisr 4 v) s = .next s)
      ∧ (decode (.bus 0x11C 4 v) = .ok (.wMisr 4 v) ∧ exec (.wMisr 4 v) s = .next s)

/-- R200, R208, R210: a read of CR, DMACR or IMSCR returns the stored value and changes nothing but the host's record of
reads; reserved bits and FFLUSH read 0, and CRYPEN reads 1 throughout a pass. -/
def Obligations.StoredRegistersReadBack : Prop :=
  ∀ s : State,
    (decode (.bus 0x000 4 0) = .ok (.rCr 4) ∧ exec (.rCr 4) s = .next { s with reads := s.reads ++ [s.cr] })
      ∧ (decode (.bus 0x010 4 0) = .ok (.rDmacr 4) ∧ exec (.rDmacr 4) s = .next { s with reads := s.reads ++ [s.dmacr] })
      ∧ (decode (.bus 0x014 4 0) = .ok (.rImscr 4) ∧ exec (.rImscr 4) s = .next { s with reads := s.reads ++ [s.imscr] })
      ∧ (BlockInv s → s.cr &&& ~~~(0x000B83FC : Word) = 0 ∧ s.dmacr &&& ~~~(3 : Word) = 0 ∧ s.imscr &&& ~~~(3 : Word) = 0
          ∧ (s.busy = true → s.cr.getLsbD 15 = true))

/-- R40, R46, R51, R52, R212, R214: a read of SR, RISR or MISR computes its bits from the state at the read and changes
nothing but the host's record of reads; a write to one of them has no effect. SR has the five predicates and 0 above them
and reads 0x00000003 at reset; RISR is IFNF and OFNE and reads 0x00000001 at reset; MISR is RISR & IMSCR & 3; IRQ is
MISR[0] or MISR[1]. -/
def Obligations.StatusRegistersAreComputedFresh : Prop :=
  ((∀ s : State, ∃ w : Word, exec (.rSr 4) s = .next { s with reads := s.reads ++ [w] }
        ∧ w.getLsbD 0 = decide (s.inQ.length = 0)
        ∧ w.getLsbD 1 = decide (s.inQ.length < s.params.inDepth)
        ∧ w.getLsbD 2 = decide (s.outQ.length > 0)
        ∧ w.getLsbD 3 = decide (s.outQ.length = s.params.outDepth)
        ∧ w.getLsbD 4 = s.busy
        ∧ ∀ n, 5 ≤ n → w.getLsbD n = false)
      ∧ (∀ s v, exec (.wSr 4 v) s = .next s)
      ∧ (∀ s v, exec (.wRisr 4 v) s = .next s ∧ exec (.wMisr 4 v) s = .next s)
      ∧ exec (.rSr 4) State.reset = .next { State.reset with reads := [0x00000003] }
      ∧ exec (.rRisr 4) State.reset = .next { State.reset with reads := [0x00000001] })
    ∧ ∀ s : State, ∃ raw masked : Word,
        (decode (.bus 0x018 4 0) = .ok (.rRisr 4) ∧ exec (.rRisr 4) s = .next { s with reads := s.reads ++ [raw] })
          ∧ (decode (.bus 0x01C 4 0) = .ok (.rMisr 4) ∧ exec (.rMisr 4) s = .next { s with reads := s.reads ++ [masked] })
          ∧ raw.getLsbD 0 = decide (s.inQ.length < s.params.inDepth)
          ∧ raw.getLsbD 1 = decide (s.outQ.length > 0)
          ∧ (∀ n, 2 ≤ n → raw.getLsbD n = false)
          ∧ masked = raw &&& s.imscr &&& 3
          ∧ s.irq = (masked.getLsbD 0 || masked.getLsbD 1)

/-- R209, R211: a write of DMACR stores v & 3, and no DMA step of a cleared direction can follow; a write of IMSCR stores
v & 3 and notifies each masked status bit it changes, at once. -/
def Obligations.DmaEnableAndInterruptMaskWrites : Prop :=
  ∀ (s : State) (v : Word),
    (decode (.bus 0x110 4 v) = .ok (.wDmacr 4 v) ∧ exec (.wDmacr 4 v) s = .next { s with dmacr := v &&& 3 })
      ∧ (v.getLsbD 0 = false → ∀ u : State, u.dmacr = v &&& 3 → dmaInStep u = none)
      ∧ (v.getLsbD 1 = false → ∀ u : State, u.dmacr = v &&& 3 → dmaOutStep u = none)
      ∧ (decode (.bus 0x114 4 v) = .ok (.wImscr 4 v)
        ∧ exec (.wImscr 4 v) s
          = .next { s with imscr := v &&& 3, events := s.events ++ notifications s { s with imscr := v &&& 3 } })
      ∧ (s.inQ.length < s.params.inDepth → s.imscr.getLsbD 0 = false → v.getLsbD 0 = true →
          .notify .input true ∈ notifications s { s with imscr := v &&& 3 })

/-- R204, R216: a read of DIN or of a key register returns a word and changes nothing else that the spec names. The word is
unrelated to the FIFO and to the key: two states that differ only in the input FIFO (only in the key registers) record the
same word, and leave the FIFO and the keys as they were. That the word is the next of a sequence of free values, counted by
`draws`, is the model's (DESIGN CHOICE, log entry 5). -/
def Obligations.ReadsOfWriteOnlyPortsReturnAFreeWord : Prop :=
  ∀ (s : State) (k : Fin 8),
    (∃ (w : Word) (n : Nat), exec (.rDin 4) s = .next { s with reads := s.reads ++ [w], draws := n }
        ∧ ∀ q : List Word, exec (.rDin 4) { s with inQ := q }
            = .next { s with inQ := q, reads := s.reads ++ [w], draws := n })
      ∧ ∃ (w : Word) (n : Nat), exec (.rKey 4 k) s = .next { s with reads := s.reads ++ [w], draws := n }
        ∧ ∀ key : Vector Word 8, exec (.rKey 4 k) { s with key := key }
            = .next { s with key := key, reads := s.reads ++ [w], draws := n }

/-- R205: a DIN write to a full FIFO raises InFifoOverrun and does nothing else; otherwise the word goes to the tail,
whatever CRYPEN, the mode and the phase are, and IFEM is 0 and IFNF is 0 iff the FIFO is now full. -/
def Obligations.DinWritePushesOrOverruns : Prop :=
  ∀ (s : State) (w : Word),
    decode (.bus 0x108 4 w) = .ok (.wDin 4 w)
      ∧ (s.inQ.length = s.params.inDepth → exec (.wDin 4 w) s = .next (s.raiseFault .inFifoOverrun))
      ∧ (s.inQ.length ≠ s.params.inDepth → ∃ t, exec (.wDin 4 w) s = .next t
          ∧ t = { s with inQ := s.inQ ++ [w], events := s.events ++ notifications s { s with inQ := s.inQ ++ [w] } }
          ∧ t.srWord.getLsbD 0 = false
          ∧ (s.inQ.length ≤ s.params.inDepth → t.srWord.getLsbD 1 = decide (t.inQ.length ≠ s.params.inDepth)))

/-- R206: a DOUT read of an empty FIFO raises OutFifoUnderrun and does nothing else; otherwise it removes and returns the
oldest word, OFFU is 0 and OFNE is 0 iff the FIFO is now empty. -/
def Obligations.DoutReadPopsOrUnderruns : Prop :=
  decode (.bus 0x00C 4 0) = .ok (.rDout 4)
    ∧ (∀ s : State, s.outQ = [] → exec (.rDout 4) s = .next (s.raiseFault .outFifoUnderrun))
    ∧ ∀ (s : State) (w : Word) (q : List Word), s.outQ = w :: q →
        ∃ t, exec (.rDout 4) s = .next t
          ∧ t = { s with outQ := q, reads := s.reads ++ [w], events := s.events ++ notifications s { s with outQ := q } }
          ∧ (s.outQ.length ≤ s.params.outDepth → t.srWord.getLsbD 3 = false)
          ∧ t.srWord.getLsbD 2 = decide (q ≠ [])

/-- R217: a key register write while busy raises KeyWriteWhileBusy and does nothing else; otherwise it stores the word,
whatever CRYPEN is, and clears decKeyReady even for a register that no mode uses. -/
def Obligations.KeyWriteStoresAndClearsPreparation : Prop :=
  ∀ (s : State) (k : Fin 8) (v : Word),
    decode (.bus (0x120 + 4 * BitVec.ofNat 9 k.val) 4 v) = .ok (.wKey 4 k v)
      ∧ (s.busy = true → exec (.wKey 4 k v) s = .next (s.raiseFault .keyWriteWhileBusy))
      ∧ (s.busy = false →
          exec (.wKey 4 k v) s = .next { s with key := s.key.set k.val v k.isLt, decKeyReady := false })

/-- R218 to R223: an IV or context register reads back while not busy and as some free word while busy; a write while busy
raises IVWriteWhileBusy or CtxWriteWhileBusy and does nothing else, and otherwise stores the word, in every mode. The
context rows name register x for `-lo` and 4 + x for `-hi`. -/
def Obligations.IvAndContextRegistersReadAndWrite : Prop :=
  (∀ (s : State) (v : Fin 4) (x : Word),
      (s.busy = false → exec (.rIv 4 v) s = .next { s with reads := s.reads ++ [s.iv[v.val]] })
        ∧ (s.busy = true → ∃ w n, exec (.rIv 4 v) s = .next { s with reads := s.reads ++ [w], draws := n })
        ∧ (s.busy = true → exec (.wIv 4 v x) s = .next (s.raiseFault .ivWriteWhileBusy))
        ∧ (s.busy = false → exec (.wIv 4 v x) s = .next { s with iv := s.iv.set v.val x v.isLt }))
    ∧ ∀ (s : State) (x : Fin 4) (y : Word),
        (s.busy = false →
            exec (.rCswLo 4 x) s = .next { s with reads := s.reads ++ [s.csw[x.val]] }
              ∧ exec (.rCswHi 4 x) s = .next { s with reads := s.reads ++ [s.csw[4 + x.val]] }
              ∧ exec (.rCsfLo 4 x) s = .next { s with reads := s.reads ++ [s.csf[x.val]] }
              ∧ exec (.rCsfHi 4 x) s = .next { s with reads := s.reads ++ [s.csf[4 + x.val]] }
              ∧ exec (.wCswLo 4 x y) s = .next { s with csw := s.csw.set x.val y }
              ∧ exec (.wCswHi 4 x y) s = .next { s with csw := s.csw.set (4 + x.val) y }
              ∧ exec (.wCsfLo 4 x y) s = .next { s with csf := s.csf.set x.val y }
              ∧ exec (.wCsfHi 4 x y) s = .next { s with csf := s.csf.set (4 + x.val) y })
          ∧ (s.busy = true →
            (∃ w n, exec (.rCswLo 4 x) s = .next { s with reads := s.reads ++ [w], draws := n })
              ∧ (∃ w n, exec (.rCswHi 4 x) s = .next { s with reads := s.reads ++ [w], draws := n })
              ∧ (∃ w n, exec (.rCsfLo 4 x) s = .next { s with reads := s.reads ++ [w], draws := n })
              ∧ (∃ w n, exec (.rCsfHi 4 x) s = .next { s with reads := s.reads ++ [w], draws := n })
              ∧ exec (.wCswLo 4 x y) s = .next (s.raiseFault .ctxWriteWhileBusy)
              ∧ exec (.wCswHi 4 x y) s = .next (s.raiseFault .ctxWriteWhileBusy)
              ∧ exec (.wCsfLo 4 x y) s = .next (s.raiseFault .ctxWriteWhileBusy)
              ∧ exec (.wCsfHi 4 x y) s = .next (s.raiseFault .ctxWriteWhileBusy))

/-- R224, R225, R505: a transaction whose offset is misaligned or at 0x90 or above, or whose WIDTH is not 4, raises BusError
and does nothing else; the width is checked first, so no other fault can be raised. That WIDTH code 0 of a record stands for
width 4 is the model's (DESIGN CHOICE, log entry 8). -/
def Obligations.BadTransactionsRaiseBusError : Prop :=
  (∀ (t : BitVec 9) (code : BitVec 8) (data : Word),
      t.extractLsb' 0 2 ≠ 0 ∨ 0x90 ≤ (t.extractLsb' 0 8).toNat ∨ (code ≠ 0 ∧ code ≠ 4) →
        ∃ i, decode (.bus t code data) = .ok i ∧ ∀ s, exec i s = .next (s.raiseFault .busError))
    ∧ (∀ n a o s, exec (.busErrUnmapped90 n a o) s = .next (s.raiseFault .busError))
    ∧ (∀ n a o s, exec (.busErrUnmappedA0 n a o) s = .next (s.raiseFault .busError))
    ∧ (∀ n a o s, exec (.busErrUnmappedC0 n a o) s = .next (s.raiseFault .busError))
    ∧ (∀ n a o s, exec (.busErrMisalignedOdd n a o) s = .next (s.raiseFault .busError))
    ∧ ∀ n a o s, exec (.busErrMisalignedEven n a o) s = .next (s.raiseFault .busError)

/-- R501, R505, R13: every register transaction of the host completes, and it either raises one fault and changes nothing
but the fault set, or raises none. -/
def Obligations.ATransactionRaisesOneFaultOrNone : Prop :=
  ∀ (i : Instr) (s : State), i.isOp = false →
    ∃ t, exec i s = .next t ∧ ((∃ k, t = s.raiseFault k) ∨ t.faults = s.faults)

/-- R282: a register transaction and an agent's step each emit exactly the notifications their change of MISR owes, IN
before OUT, and no other entry of that kind. -/
def Obligations.NotificationsFollowEveryMisrChange : Prop :=
  (∀ (i : Instr) (s t : State), i.isOp = false → exec i s = .next t →
      ∃ es, t.events = s.events ++ es ∧ es.filter Event.isNotify = notifications s t)
    ∧ ∀ (a : Turn) (s : State),
        ∃ es, (agentStep a s).events = s.events ++ es ∧ es.filter Event.isNotify = notifications s (agentStep a s)

/-! ### The CR write -/

/-- R201, R505: a CR write raises the first fault that applies of ReservedConfig, ConfigWhileActive, PhaseWhileActive and
FlushWhileBusy, and does nothing else. -/
def Obligations.CrWriteFaultsInOrder : Prop :=
  ∀ (s : State) (v : Word),
    let new := v &&& 0x000B83FC
    let cfgDiffers := s.cr &&& 0x000803FC ≠ new &&& 0x000803FC
    let phaseDiffers := s.cr &&& 0x00030000 ≠ new &&& 0x00030000
    (reservedCr new → exec (.wCr 4 v) s = .next (s.raiseFault .reservedConfig))
      ∧ (¬reservedCr new → s.activeNow → cfgDiffers → exec (.wCr 4 v) s = .next (s.raiseFault .configWhileActive))
      ∧ (¬reservedCr new → s.activeNow → ¬cfgDiffers → phaseDiffers →
          exec (.wCr 4 v) s = .next (s.raiseFault .phaseWhileActive))
      ∧ (¬reservedCr new → ¬(s.activeNow ∧ (cfgDiffers ∨ phaseDiffers)) → v.getLsbD 14 = true → s.busy = true →
          exec (.wCr 4 v) s = .next (s.raiseFault .flushWhileBusy))

/-- R201: a CR write that passes every check stores v & CR_WMASK & ~FFLUSH, empties both FIFOs iff FFLUSH is written 1,
clears finalDone iff GCM_CCMPH changes, clears decKeyReady where KEYSIZE changes, and leaves a pass in flight running, with
IV, CSW and CSF, while CRYPEN is written 1. No other state changes but IV, CSW, CSF and the free values drawn for them (an
abort: ClearingCrypenWhileBusyAborts), the pass (an abort or a start: CrWriteStartsZeroInputPasses, which says that IV, CSW
and CSF stay where no pass is in flight), decKeyReady and the history. -/
def Obligations.CrWriteStoresAndFlushes : Prop :=
  ∀ (s : State) (v : Word), crWriteLegal v s →
    ∃ t, exec (.wCr 4 v) s = .next t
      ∧ t = { s with
          cr := v &&& 0x000B83FC
          inQ := if v.getLsbD 14 = true then [] else s.inQ
          outQ := if v.getLsbD 14 = true then [] else s.outQ
          finalDone := if s.cr &&& 0x00030000 = v &&& 0x00030000 then s.finalDone else false
          decKeyReady := t.decKeyReady, iv := t.iv, csw := t.csw, csf := t.csf, busy := t.busy, pass := t.pass
          inflight := t.inflight, events := t.events, draws := t.draws }
      ∧ (s.cr.extractLsb' 8 2 ≠ v.extractLsb' 8 2 → t.decKeyReady = false)
      ∧ (s.busy = true → v.getLsbD 15 = true → t.iv = s.iv ∧ t.csw = s.csw ∧ t.csf = s.csf ∧ t.busy = true
          ∧ t.pass = s.pass ∧ t.inflight = s.inflight)
      ∧ ∃ es, t.events = s.events ++ es

/-- R277, R201: clearing CRYPEN while a pass is in flight aborts it: the consumed words are lost, the engine is idle, the FIFOs
stay, and the event says which pass. A key preparation leaves decKeyReady 0 and the chaining registers alone; any other
pass leaves IV, CSW and CSF some free words. -/
def Obligations.ClearingCrypenWhileBusyAborts : Prop :=
  ∀ (s : State) (v : Word) (p : Pass), BlockInv s → s.pass = some p → crWriteLegal v s → v.getLsbD 15 = false →
    ∃ t, exec (.wCr 4 v) s = .next t
      ∧ t = { s with
          cr := v &&& 0x000B83FC, busy := false, pass := none, inflight := [], events := s.events ++ [.abort p]
          decKeyReady := t.decKeyReady, iv := t.iv, csw := t.csw, csf := t.csf, draws := t.draws }
      ∧ (p = .keyPrep → t.decKeyReady = false ∧ t.iv = s.iv ∧ t.csw = s.csw ∧ t.csf = s.csf)
      ∧ (p ≠ .keyPrep → t.decKeyReady = s.decKeyReady)

/-- R278: with no pass in flight, a CR write starts a key preparation, an init pass or a zero-input tag pass exactly when the
condition of that pass goes from false to true, in the same step; otherwise it starts nothing. That PassStart comes before
the notifications of the step is read from R282 (DEDUCED, log entry 11). -/
def Obligations.CrWriteStartsZeroInputPasses : Prop :=
  ∀ (s : State) (v : Word), BlockInv s → s.busy = false → crWriteLegal v s →
    let new := v &&& 0x000B83FC
    let kp := fun c : Word => crypen c = true ∧ crMode c = some .aesKeyPrep
    let ini := fun c : Word => crypen c = true ∧ (crMode c = some .aesGcm ∨ crMode c = some .aesCcm) ∧ phaseOf c = .init
    let tg := fun c : Word => crypen c = true ∧ phaseOf c = .final
      ∧ ((crMode c = some .aesGcm ∧ s.params.finalGcm = .noWords)
        ∨ (crMode c = some .aesCcm ∧ s.params.finalCcm = .noWords))
    ∃ t, exec (.wCr 4 v) s = .next t
      ∧ (kp new ∧ ¬kp s.cr → t.pass = some .keyPrep ∧ t.busy = true ∧ t.inflight = [] ∧ t.decKeyReady = false
          ∧ t.events = s.events ++ [.passStart .keyPrep] ++ notifications s t)
      ∧ (ini new ∧ ¬ini s.cr → t.pass = some .init ∧ t.busy = true ∧ t.inflight = []
          ∧ t.events = s.events ++ [.passStart .init] ++ notifications s t)
      ∧ (tg new ∧ ¬tg s.cr → t.finalDone = false → t.pass = some .tag ∧ t.busy = true ∧ t.inflight = []
          ∧ t.events = s.events ++ [.passStart .tag] ++ notifications s t)
      ∧ (¬(kp new ∧ ¬kp s.cr) → ¬(ini new ∧ ¬ini s.cr) → ¬(tg new ∧ ¬tg s.cr ∧ t.finalDone = false) →
          t.pass = none ∧ t.busy = false ∧ t.inflight = [] ∧ t.events = s.events ++ notifications s t
          ∧ (s.cr.extractLsb' 8 2 = v.extractLsb' 8 2 → t.decKeyReady = s.decKeyReady))
      ∧ t.iv = s.iv ∧ t.csw = s.csw ∧ t.csf = s.csf

/-- R201, R278: writing CR the value it holds changes nothing and starts nothing. -/
def Obligations.RewritingCrChangesNothing : Prop :=
  ∀ s : State, BlockInv s → exec (.wCr 4 s.cr) s = .next s

/-! ### The engine and the DMA agents -/

/-- R271: the data pass the engine may start next, for every mode and phase. -/
def Obligations.DispatcherShapeTable : Prop :=
  ∀ (p : Config.Params) (cr : Word) (fd : Bool) (m : Mode), crMode cr = some m →
    shape p cr fd =
      match m with
      | .tdesEcb | .tdesCbc | .desEcb | .desCbc => some (.data, 2, 2)
      | .aesEcb | .aesCbc | .aesCtr => some (.data, 4, 4)
      | .aesKeyPrep => none
      | .aesGcm =>
        if cr.extractLsb' 16 2 = 0 then none
        else if cr.extractLsb' 16 2 = 1 then some (.data, 4, 0)
        else if cr.extractLsb' 16 2 = 2 then some (.data, 4, 4)
        else if fd = false ∧ p.finalGcm.words = 4 then some (.tag, 4, 4) else none
      | .aesCcm =>
        if cr.extractLsb' 16 2 = 0 then none
        else if cr.extractLsb' 16 2 = 1 then some (.data, 4, 0)
        else if cr.extractLsb' 16 2 = 2 then some (.data, 4, 4)
        else if fd = false ∧ p.finalCcm.words = 4 then some (.tag, 4, 4) else none

/-- R272: on the engine's turn with no pass in flight, a pass starts iff CRYPEN is 1 and the shape's input words and
output room are there: it takes the oldest words and emits PassStart; an AES ECB or CBC decrypt block without key
preparation raises KeyNotPrepared and does nothing else; and with too few words or too little room the engine waits. That a
turn with nothing to do changes only the schedule is the model's (log entry 3), and that PassStart comes before the
notifications is read from R282 (DEDUCED, log entry 11). -/
def Obligations.EngineStartsABlock : Prop :=
  ∀ (s : State) (rest : List Turn), BlockInv s → s.busy = false → s.sched = .engine :: rest →
    let unprepared := (crMode s.cr = some .aesEcb ∨ crMode s.cr = some .aesCbc) ∧ s.cr.getLsbD 2 = true
      ∧ s.decKeyReady = false
    (∀ kind bi bo, s.cr.getLsbD 15 = true → shape s.params s.cr s.finalDone = some (kind, bi, bo) →
        bi ≤ s.inQ.length → bo ≤ s.params.outDepth - s.outQ.length →
          (unprepared → step s = .next ({ s with sched := rest }.raiseFault .keyNotPrepared))
          ∧ (¬unprepared → step s = .next { s with
              sched := rest, inflight := s.inQ.take bi, inQ := s.inQ.drop bi, busy := true
              pass := if kind = .data then some (.data bo) else some .tag
              events := s.events ++ [.passStart kind] ++ notifications s { s with inQ := s.inQ.drop bi } }))
      ∧ ((s.cr.getLsbD 15 = false ∨ shape s.params s.cr s.finalDone = none
          ∨ ∃ kind bi bo, shape s.params s.cr s.finalDone = some (kind, bi, bo)
              ∧ (s.inQ.length < bi ∨ s.params.outDepth - s.outQ.length < bo)) →
          step s = .next { s with sched := rest })

/-- R273, R288: on the engine's turn a data pass completes: CipherBlock is called with the mode, the direction, the key size,
the used key registers, IV, the phase, CSW, CSF and the swapped input words; its output words, swapped, go to the tail of the
output FIFO, of which there was room for all; IV, CSW and CSF take what the core gives, IV untouched in the ECB modes and CSW
and CSF outside GCM and CCM; no key register changes. That constants stand for IV in an ECB mode and for the phase, CSW and CSF
outside GCM and CCM, and 0 for an unused key register, is the model's (DEDUCED, log entry 6); that PassDone comes before the
notifications is read from R282 (DEDUCED, log entry 11). -/
def Obligations.EngineCompletesADataPass : Prop :=
  ∀ (s : State) (rest : List Turn) (bo : Nat), BlockInv s → s.pass = some (.data bo) → s.sched = .engine :: rest →
    ∃ m dt ks dir ph key r out iv' csw' csf', crMode s.cr = some m ∧ CoreReads s.cr s.key m dt ks dir ph key
      ∧ r = Config.cipherBlock {
          mode := m, dir := dir, keySize := ks, key := key, din := s.inflight.map (swapWord dt)
          iv := if m = .tdesEcb ∨ m = .desEcb ∨ m = .aesEcb then Vector.replicate 4 0 else s.iv
          phase := if m = .aesGcm ∨ m = .aesCcm then ph else .init
          csw := if m = .aesGcm ∨ m = .aesCcm then s.csw else Vector.replicate 8 0
          csf := if m = .aesGcm ∨ m = .aesCcm then s.csf else Vector.replicate 8 0 }
      ∧ out = r.out.toList.take bo
      ∧ iv' = (if m = .tdesEcb ∨ m = .desEcb ∨ m = .aesEcb then s.iv else r.iv)
      ∧ csw' = (if m = .aesGcm ∨ m = .aesCcm then r.csw else s.csw)
      ∧ csf' = (if m = .aesGcm ∨ m = .aesCcm then r.csf else s.csf)
      ∧ (out, iv', csw', csf')
          = coreBlock m s.cr s.key s.iv s.csw s.csf (s.inflight.map (swapWord (crWidth s.cr))) bo
      ∧ out.length = bo ∧ s.outQ.length + bo ≤ s.params.outDepth
      ∧ (m = .tdesEcb ∨ m = .desEcb ∨ m = .aesEcb → iv' = s.iv)
      ∧ (m ≠ .aesGcm → m ≠ .aesCcm → csw' = s.csw ∧ csf' = s.csf)
      ∧ step s = .next { s with
          sched := rest, outQ := s.outQ ++ out.map (swapWord dt), iv := iv', csw := csw', csf := csf'
          inflight := [], busy := false, pass := none
          events := s.events ++ [.passDone .data] ++ notifications s { s with outQ := s.outQ ++ out.map (swapWord dt) } }

/-- R274, R275, R276: on the engine's turn a key preparation sets decKeyReady and nothing else; an init pass writes IV, CSW
and CSF from InitPass of the mode, the key size, the used key registers and IV; a tag pass needs room for four words, appends
the four words of TagPass of the mode, the direction, the key size, the used key registers, IV, CSW, CSF and the swapped input
words, swapped, writes IV, CSW and CSF from it and sets finalDone, and waits without the room. That 0 stands for an unused key
register is the model's (DEDUCED, log entry 6). That a turn of an engine that waits changes only the schedule is the model's
(DESIGN CHOICE, log entry 3), and that PassDone comes before the notifications is read from R282 (DEDUCED, log entry 11). -/
def Obligations.EngineCompletesTheOtherPasses : Prop :=
  ∀ (s : State) (rest : List Turn), BlockInv s → s.sched = .engine :: rest →
    (s.pass = some .keyPrep → step s = .next { s with
        sched := rest, decKeyReady := true, inflight := [], busy := false, pass := none
        events := s.events ++ [.passDone .keyPrep] })
      ∧ (s.pass = some .init → ∃ m dt ks dir ph key r, crMode s.cr = some m ∧ CoreReads s.cr s.key m dt ks dir ph key
        ∧ r = Config.initPass { mode := m, keySize := ks, key := key, iv := s.iv }
        ∧ r = coreInit m s.cr s.key s.iv
        ∧ step s = .next { s with
            sched := rest, iv := r.iv, csw := r.csw, csf := r.csf, inflight := [], busy := false, pass := none
            events := s.events ++ [.passDone .init] })
      ∧ (s.pass = some .tag → s.outQ.length + 4 ≤ s.params.outDepth → ∃ m dt ks dir ph key r, crMode s.cr = some m
        ∧ CoreReads s.cr s.key m dt ks dir ph key
        ∧ r = Config.tagPass {
            mode := m, dir := dir, keySize := ks, key := key, iv := s.iv, csw := s.csw, csf := s.csf
            din := s.inflight.map (swapWord dt) }
        ∧ r = coreTag m s.cr s.key s.iv s.csw s.csf (s.inflight.map (swapWord (crWidth s.cr)))
        ∧ r.out.toList.length = 4
        ∧ step s = .next { s with
            sched := rest, outQ := s.outQ ++ r.out.toList.map (swapWord dt)
            iv := r.iv, csw := r.csw, csf := r.csf, inflight := [], busy := false, pass := none, finalDone := true
            events := s.events ++ [.passDone .tag]
              ++ notifications s { s with outQ := s.outQ ++ r.out.toList.map (swapWord dt) } })
      ∧ (s.pass = some .tag → s.params.outDepth < s.outQ.length + 4 → step s = .next { s with sched := rest })

/-- R280, R281: a DMA-in turn moves the source's head to the tail of the input FIFO iff DIEN is 1, there is room and the
source holds a word; a DMA-out turn moves the oldest output word to the sink's tail iff DOEN is 1 and there is one. The
notifications of the transaction come before its DmaIn or DmaOut entry (DEDUCED, log entry 11). That a turn with nothing to
move changes only the schedule is the model's (DESIGN CHOICE, log entry 3). -/
def Obligations.DmaAgentsMoveOneWord : Prop :=
  ∀ (s : State) (rest : List Turn),
    (s.sched = .dmaIn :: rest →
        (∀ w ws, s.src = w :: ws → s.dmacr.getLsbD 0 = true → s.inQ.length < s.params.inDepth →
          step s = .next { s with
            sched := rest, inQ := s.inQ ++ [w], src := ws
            events := s.events ++ notifications s { s with inQ := s.inQ ++ [w] } ++ [.dmaIn w] })
        ∧ (s.src = [] ∨ s.dmacr.getLsbD 0 = false ∨ s.params.inDepth ≤ s.inQ.length →
          step s = .next { s with sched := rest }))
      ∧ (s.sched = .dmaOut :: rest →
        (∀ w q, s.outQ = w :: q → s.dmacr.getLsbD 1 = true →
          step s = .next { s with
            sched := rest, outQ := q, snk := s.snk ++ [w]
            events := s.events ++ notifications s { s with outQ := q } ++ [.dmaOut w] })
        ∧ (s.outQ = [] ∨ s.dmacr.getLsbD 1 = false → step s = .next { s with sched := rest }))

/-- R284: each data-unit swap is its own inverse, and moves every bit where the table says. -/
def Obligations.DataUnitSwapsAreInvolutions : Prop :=
  ∀ w : Word,
    (∀ dt, swapWord dt (swapWord dt w) = w)
      ∧ swapWord .w32 w = w
      ∧ (∀ n, n < 32 → (swapWord .w16 w).getLsbD n = w.getLsbD ((n + 16) % 32))
      ∧ (∀ n, n < 32 → (swapWord .w8 w).getLsbD n = w.getLsbD (8 * (3 - n / 8) + n % 8))
      ∧ ∀ n, n < 32 → (swapWord .w1 w).getLsbD n = w.getLsbD (31 - n)

/-- R283 laws (a) and (d), R286: no pass depends on a key register that the configuration does not use, nor, outside GCM and
CCM, on the phase field; CipherBlock gives exactly bo words; outside GCM and CCM the phase field starts no pass. Law (d) is
for the key registers alone: that CipherBlock does not depend on the phase outside GCM and CCM is read from R38 and R286
(DEDUCED, log entry 6). -/
def Obligations.PassesDependOnTheirArgumentsOnly : Prop :=
  ∀ (p : Config.Params) (m : Mode) (cr : Word) (key key' : Vector Word 8) (iv : Vector Word 4) (csw csf : Vector Word 8)
    (din : List Word), crMode cr = some m →
    ((∀ i : Fin 8, keyUsed m (kszOf m cr) i.val = true → key[i.val] = key'[i.val]) →
        (∀ bo, coreBlock m cr key iv csw csf din bo = coreBlock m cr key' iv csw csf din bo)
        ∧ coreInit m cr key iv = coreInit m cr key' iv
        ∧ coreTag m cr key iv csw csf din = coreTag m cr key' iv csw csf din)
      ∧ (∀ bo, bo ≤ 4 → (coreBlock m cr key iv csw csf din bo).1.length = bo)
      ∧ (m ≠ .aesGcm → m ≠ .aesCcm → ∀ cr' : Word, cr &&& ~~~(0x00030000 : Word) = cr' &&& ~~~(0x00030000 : Word) →
        (∀ bo, coreBlock m cr key iv csw csf din bo = coreBlock m cr' key iv csw csf din bo)
        ∧ (∀ fd, shape p cr fd = shape p cr' fd)
        ∧ keyPrepCondition cr = keyPrepCondition cr' ∧ initCondition cr = false ∧ tagCondition p cr = false)

/-- R113, R270, R505: a turn of another agent moves as an agent may: CR, DMACR, IMSCR and the key registers do not change, and
the one fault it can record is KeyNotPrepared; IV, CSW and CSF may change, which a pass rewrites (R273, R275, R276). That such
a turn always answers a next state is the model's (DESIGN CHOICE, log entry 3). -/
def Obligations.AgentsLeaveControlAndKeyRegisters : Prop :=
  ∀ (s : State) (a : Turn) (rest : List Turn), BlockInv s → s.sched = a :: rest → a ≠ .host →
    ∃ t, step s = .next t ∧ AgentMoves { s with sched := rest } t

/-- R341: Quiet over three values read, and once it holds of what they would read now, no agent but the host makes it
false. -/
def Obligations.QuietOutlivesOtherAgents : Prop :=
  (∀ cr sr dm : Word, quiet cr sr dm = true ↔
      cr.getLsbD 15 = false
        ∨ (sr.getLsbD 0 = true ∧ sr.getLsbD 2 = false ∧ sr.getLsbD 4 = false ∧ dm.getLsbD 0 = false))
    ∧ ∀ (s t : State) (a : Turn) (rest : List Turn), BlockInv s → s.quietNow = true → s.sched = a :: rest → a ≠ .host →
        step s = .next t → t.quietNow = true

/-- R279: while a pass is in flight no register transaction changes what its completion reads without a fault or an
abort. -/
def Obligations.ArgumentsOfAPassAreStable : Prop :=
  ∀ (i : Instr) (s t : State) (p : Pass), BlockInv s → i.isOp = false → s.pass = some p → exec i s = .next t →
    (∃ k, t = s.raiseFault k) ∨ (t.pass = none ∧ t.events = s.events ++ [.abort p])
      ∨ (t.pass = some p ∧ t.inflight = s.inflight ∧ t.key = s.key ∧ t.iv = s.iv ∧ t.csw = s.csw ∧ t.csf = s.csf
        ∧ t.cr = s.cr)

/-! ### Reset and invariants -/

/-- R540, R541, R64, R65: the state right after reset, and what a block reset during a run leaves: every register, FIFO and
hidden field at its reset value, the controller unconfigured with `nextId` kept, and faults, events and the DMA streams
kept; each masked interrupt status bit that falls with the reset is one notification (R282, R504). That a block reset is a
line of the host's program is the model's (DESIGN CHOICE, log entry 15). -/
def Obligations.ResetLeavesTheResetState : Prop :=
  (State.reset.cr = 0 ∧ State.reset.dmacr = 0 ∧ State.reset.imscr = 0 ∧ State.reset.key = Vector.replicate 8 0
      ∧ State.reset.iv = Vector.replicate 4 0 ∧ State.reset.csw = Vector.replicate 8 0
      ∧ State.reset.csf = Vector.replicate 8 0 ∧ State.reset.inQ = [] ∧ State.reset.outQ = []
      ∧ State.reset.busy = false ∧ State.reset.pass = none ∧ State.reset.inflight = []
      ∧ State.reset.decKeyReady = false ∧ State.reset.finalDone = false ∧ State.reset.faults = []
      ∧ State.reset.events = []
      ∧ State.reset.ctl = { cfg := none, tracker := none, prepared := false, keyPrepPending := false, outstanding := []
                            nextId := 0 }
      ∧ State.reset.srWord = 0x00000003 ∧ State.reset.risrWord = 0x00000001 ∧ State.reset.misrWord = 0)
    ∧ ∀ (s : State) (ps : List Line), s.sched = [] → s.prog = .blockReset :: ps →
        step s = .next { s with
          prog := ps, cr := 0, dmacr := 0, imscr := 0, key := Vector.replicate 8 0, iv := Vector.replicate 4 0
          csw := Vector.replicate 8 0, csf := Vector.replicate 8 0, inQ := [], outQ := [], busy := false, pass := none
          inflight := [], decKeyReady := false, finalDone := false
          events := s.events ++ (if s.misrWord.getLsbD 0 = true then [.notify .input false] else [])
            ++ (if s.misrWord.getLsbD 1 = true then [.notify .output false] else [])
          ctl := { cfg := none, tracker := none, prepared := false, keyPrepPending := false, outstanding := []
                   nextId := s.ctl.nextId } }

/-- The invariants hold right after reset (R540, R541). -/
def Obligations.ResetMeetsTheInvariants : Prop := StateInv State.reset ∧ CtlInv State.reset

/-- R39, R49, R50, R58, R59, R61, R63, R66, R67, R153, R270: every step, of every agent and of every line of a program, from
every state that meets the invariant leads to a state that meets it. -/
def Obligations.EveryStepKeepsTheInvariant : Prop :=
  ∀ s t : State, StateInv s → step s = .next t → StateInv t

/-- R64, R65: no step, not even a reset, takes a fault out of the set or an entry out of the history. -/
def Obligations.FaultsAndHistoryOnlyGrow : Prop :=
  State.reset.faults = [] ∧ State.reset.events = []
    ∧ ∀ s t : State, step s = .next t → (∀ k ∈ s.faults, k ∈ t.faults) ∧ ∃ es, t.events = s.events ++ es

/-- R348: the controller's record of the key preparation stays true of the engine through every controller operation and
every turn of another agent. The one exception is a restore that ends in KeyPrepTimeout, which leaves `keyPrepPending`
as it was (log entry 21). -/
def Obligations.ControllerRecordStaysTrue : Prop :=
  (∀ (i : Instr) (s t : State), i.isOp = true → i.wf = true → StateInv s → CtlInv s → exec i s = .next t →
      t.events.getLast? ≠ some (.hostResult .restore (.err .keyPrepTimeout)) → CtlInv t)
    ∧ ∀ (a : Turn) (s : State), BlockInv s → CtlInv s → CtlInv (agentStep a s)

/-- R340, R354: a controller operation never makes a register write that faults, whatever the other agents do in between; the
one fault that can be recorded while it runs is the engine's KeyNotPrepared. -/
def Obligations.ControllerWritesNeverFault : Prop :=
  ∀ (i : Instr) (s t : State), i.isOp = true → i.wf = true → StateInv s → exec i s = .next t →
    t.faults = s.faults ∨ t.faults = insertFault .keyNotPrepared s.faults

/-! ### The controller operations -/

/-- R340: every controller operation returns a value, as its last step, which appends one HostResult to the history and
changes nothing else; no other entry of that kind is made while it runs. -/
def Obligations.EveryOperationReturnsOneResult : Prop :=
  ∀ (i : Instr) (s : State) (op : OpName), i.wf = true → i.opName = some op →
    ∃ (t : State) (r : OpResult), exec i s = .next (t.finish op r) ∧ ∃ es, t.events = s.events ++ es ∧ es.all (!·.isResult) = true

/-- R340, R354, R508: an operation that returns an error other than the two timeouts has written no register and no
controller field: only the other agents have moved. -/
def Obligations.FailedChecksWriteNothing : Prop :=
  ∀ (i : Instr) (s t : State) (op : OpName) (e : CtlError), BlockInv s → i.wf = true → i.opName = some op →
    exec i s = .next (t.finish op (.err e)) → e ≠ .drainTimeout → e ≠ .keyPrepTimeout → AgentMoves s t

/-- R343, R344, R346, R431, R432, R435, R437, R460, R461, R464, R466, R506: the checks that need no transaction, in their
order. They change nothing, whatever the schedule; setPhase of a non-AEAD session is inert for every phase. restore refuses
a snapshot that no save() returned, whatever its id, and what is no snapshot at all, as it refuses one whose id is not
outstanding: that the answer is SnapshotConsumed there too is read from U4 of spec/93 (DEDUCED, log entry 13). Every record
of code 15 is a restore, a partial snapshot's among them (the record's layout: log entry 8). -/
def Obligations.ChecksWithoutTransactions : Prop :=
  (∀ s : State, s.ctl.cfg = none →
      (∀ key, exec (.loadKey key) s = .next (s.finish .loadKey (.err .notConfigured)))
      ∧ (∀ iv, exec (.loadIV iv) s = .next (s.finish .loadIV (.err .notConfigured)))
      ∧ exec .enable s = .next (s.finish .enable (.err .notConfigured))
      ∧ (∀ p, exec (.setPhase p) s = .next (s.finish .setPhase (.err .notConfigured)))
      ∧ exec .save s = .next (s.finish .save (.err .notConfigured)))
    ∧ (∀ (s : State) (cfg : EngineConfig), s.ctl.cfg = some cfg →
      (∀ key, key.length ≠ keyPairs cfg →
          exec (.loadKey key) s = .next (s.finish .loadKey (.err .keySizeMismatch)))
      ∧ (∀ p, cfg.mode ≠ .aesGcm → cfg.mode ≠ .aesCcm → exec (.setPhase p) s = .next (s.finish .setPhase .ok))
      ∧ (cfg.mode = .aesGcm ∨ cfg.mode = .aesCcm →
          (s.ctl.tracker = none → exec .enable s = .next (s.finish .enable (.err .phaseOrder)))
          ∧ (s.ctl.tracker = some .final → exec .save s = .next (s.finish .save (.err .saveInFinal)))
          ∧ ∀ p, (s.ctl.tracker, p) ∉ [(none, Phase.init), (some .init, .header), (some .header, .payload),
                (some .payload, .final), (some .final, .init)] →
              exec (.setPhase p) s = .next (s.finish .setPhase (.err .phaseOrder))))
    ∧ (∀ (s : State) (arg : Option ContextSnapshot) (key : List WordPair),
        (∀ snap, arg = some snap → snap.id ∉ s.ctl.outstanding ∨ snap ∉ s.snaps) →
          exec (.restore arg key) s = .next (s.finish .restore (.err .snapshotConsumed)))
    ∧ (∀ (s : State) (snap : ContextSnapshot) (key : List WordPair) (cfg : EngineConfig),
        snap.id ∈ s.ctl.outstanding → snap ∈ s.snaps → decodeConfig snap.cfgBits = some cfg →
          key.length ≠ keyPairs cfg →
          exec (.restore (some snap) key) s = .next (s.finish .restore (.err .keySizeMismatch)))
    ∧ ∀ args : List Word, ∃ arg key, decode (.op 15 args) = .ok (.restore arg key)

/-- R342, R343, R344, R345, R400, R401, R432, R464, R506: the checks over values read, in their order, where no other agent has
a turn within the operation. They change nothing. -/
def Obligations.ChecksOverValuesRead : Prop :=
  ∀ s : State, s.sched = [] →
    (∀ cfg, s.quietNow = false → exec (.configure cfg) s = .next (s.finish .configure (.err .engineActive)))
      ∧ (∀ cfg, s.quietNow = true → needsKeyPrep cfg = true →
          ¬(s.ctl.prepared = true ∧ s.cr.extractLsb' 8 2 = ksCode cfg) →
          exec (.configure cfg) s = .next (s.finish .configure (.err .keyPrepRequired)))
      ∧ (∀ cfg key, s.ctl.cfg = some cfg → key.length = keyPairs cfg →
          (s.busy = true → exec (.loadKey key) s = .next (s.finish .loadKey (.err .busyKeyLoad)))
          ∧ (s.busy = false → s.quietNow = false →
            exec (.loadKey key) s = .next (s.finish .loadKey (.err .engineActive))))
      ∧ (∀ cfg iv, s.ctl.cfg = some cfg → ivRegs cfg.mode ≠ [] →
          (s.busy = true → exec (.loadIV iv) s = .next (s.finish .loadIV (.err .busyIVLoad)))
          ∧ (s.busy = false → s.quietNow = false →
            exec (.loadIV iv) s = .next (s.finish .loadIV (.err .engineActive))))
      ∧ (s.busy = true → exec .flushFIFOs s = .next (s.finish .flushFIFOs (.err .busyFlush)))
      ∧ (s.busy = false → s.cr.getLsbD 15 = true →
          exec .flushFIFOs s = .next (s.finish .flushFIFOs (.err .engineActive)))
      ∧ (∀ w, s.dmacr.getLsbD 0 = true → exec (.pushWord w) s = .next (s.finish .pushWord (.err .dmaConflict)))
      ∧ (∀ w, s.dmacr.getLsbD 0 = false → s.params.inDepth ≤ s.inQ.length →
          exec (.pushWord w) s = .next (s.finish .pushWord (.err .inputFull)))
      ∧ (s.dmacr.getLsbD 1 = true → exec .popWord s = .next (s.finish .popWord (.err .dmaConflict)))
      ∧ (s.dmacr.getLsbD 1 = false → s.outQ = [] → exec .popWord s = .next (s.finish .popWord (.err .outputEmpty)))
      ∧ (∀ cfg p, s.ctl.cfg = some cfg → cfg.mode = .aesGcm ∨ cfg.mode = .aesCcm →
          phaseAllowed s.ctl.tracker p = true → s.quietNow = false →
          exec (.setPhase p) s = .next (s.finish .setPhase (.err .phaseWhileActive)))
      ∧ ∀ snap key cfg, snap.id ∈ s.ctl.outstanding → snap ∈ s.snaps → decodeConfig snap.cfgBits = some cfg →
          key.length = keyPairs cfg → ¬(s.drained = true ∧ s.dmacr &&& 3 = 0) →
          exec (.restore (some snap) key) s = .next (s.finish .restore (.err .engineActive))

/-- R342, R355: configure from a quiet block writes `encode(cfg)` to CR, clears the key preparation record exactly where the
engine's own is cleared, and opens the session; keys, IV and context are untouched, and only DMA has moved besides. -/
def Obligations.ConfigureOpensTheSession : Prop :=
  ∀ (s : State) (cfg : EngineConfig), BlockInv s → cfg.wf = true → s.quietNow = true →
    (needsKeyPrep cfg = true → s.ctl.prepared = true ∧ s.cr.extractLsb' 8 2 = ksCode cfg) →
    ∃ t, exec (.configure cfg) s = .next (t.finish .configure .ok)
      ∧ DmaMoves { s with
          cr := encodeConfig cfg
          decKeyReady := if s.cr.extractLsb' 8 2 = ksCode cfg then s.decKeyReady else false
          finalDone := if s.cr.extractLsb' 16 2 = 0 then s.finalDone else false
          ctl := { s.ctl with
            cfg := some cfg, tracker := none, keyPrepPending := false
            prepared := if s.cr.extractLsb' 8 2 = ksCode cfg then s.ctl.prepared else false } } t

/-- R356: with the engine disabled and no other agent's step in between, configuring twice ends as configuring once does, and
with the same result: the second call changes nothing but the history, to which it appends its own result. -/
def Obligations.ConfiguringTwiceIsConfiguringOnce : Prop :=
  ∀ (s : State) (cfg : EngineConfig), BlockInv s → cfg.wf = true → s.sched = [] → s.cr.getLsbD 15 = false →
    ∃ (t : State) (r : OpResult), exec (.configure cfg) s = .next (t.finish .configure r)
      ∧ exec (.configure cfg) (t.finish .configure r) = .next ((t.finish .configure r).finish .configure r)

/-- R343, R150: the number of pairs and the first slot of every mode and key size; and loadKey of that number of pairs, from
a quiet block, writes pair j to slot firstSlot + j, left half first, leaves every other key register alone, and forgets the
key preparation. -/
def Obligations.LoadKeyWritesTheKeySlots : Prop :=
  (∀ cfg : EngineConfig, cfg.wf = true → ∀ j : Nat,
      (cfg.mode = .desEcb ∨ cfg.mode = .desCbc → keyPairs cfg = 1 ∧ keySlot cfg j = 1 + j)
        ∧ (cfg.mode = .tdesEcb ∨ cfg.mode = .tdesCbc → keyPairs cfg = 3 ∧ keySlot cfg j = 1 + j)
        ∧ (cfg.keySize = some .k128 → keyPairs cfg = 2 ∧ keySlot cfg j = 2 + j)
        ∧ (cfg.keySize = some .k192 → keyPairs cfg = 3 ∧ keySlot cfg j = 1 + j)
        ∧ (cfg.keySize = some .k256 → keyPairs cfg = 4 ∧ keySlot cfg j = 0 + j)
        ∧ keySpan cfg.mode cfg.keySize = (keySlot cfg 0, keyPairs cfg)
        ∧ ∀ i : Nat, keyUsed cfg.mode cfg.keySize i = true ↔
            keySlot cfg 0 ≤ i / 2 ∧ i / 2 < keySlot cfg 0 + keyPairs cfg)
    ∧ ∀ (s : State) (cfg : EngineConfig) (key : List WordPair), BlockInv s → s.ctl.cfg = some cfg →
    key.length = keyPairs cfg → s.quietNow = true →
    ∃ (key' : Vector Word 8) (t : State), exec (.loadKey key) s = .next (t.finish .loadKey .ok)
      ∧ (∀ i : Fin 8, key'[i.val] =
          if keySlot cfg 0 ≤ i.val / 2 ∧ i.val / 2 < keySlot cfg 0 + keyPairs cfg then
            (let p := key.getD (i.val / 2 - keySlot cfg 0) (0, 0); if i.val % 2 = 0 then p.1 else p.2)
          else s.key[i.val])
      ∧ DmaMoves { s with
          key := key', decKeyReady := false, ctl := { s.ctl with prepared := false, keyPrepPending := false } } t

/-- R344, R151: loadIV succeeds without a transaction in the ECB modes and AES-KeyPrep; from a quiet block it writes IV[0] and
IV[1] from IV0 in DES-CBC and TDES-CBC, and IV[0..3] from IV0 and IV1 in the other modes. -/
def Obligations.LoadIvWritesTheIvRegisters : Prop :=
  ∀ (s : State) (cfg : EngineConfig) (iv : IVMaterial), s.ctl.cfg = some cfg →
    (cfg.mode = .tdesEcb ∨ cfg.mode = .desEcb ∨ cfg.mode = .aesEcb ∨ cfg.mode = .aesKeyPrep →
        exec (.loadIV iv) s = .next (s.finish .loadIV .ok))
      ∧ (BlockInv s → s.quietNow = true → cfg.mode = .tdesCbc ∨ cfg.mode = .desCbc →
        ∃ t, exec (.loadIV iv) s = .next (t.finish .loadIV .ok)
          ∧ DmaMoves { s with iv := #v[iv.iv0.1, iv.iv0.2, s.iv[2], s.iv[3]] } t)
      ∧ (BlockInv s → s.quietNow = true →
        cfg.mode = .aesCbc ∨ cfg.mode = .aesCtr ∨ cfg.mode = .aesGcm ∨ cfg.mode = .aesCcm →
        ∃ t, exec (.loadIV iv) s = .next (t.finish .loadIV .ok)
          ∧ DmaMoves { s with iv := #v[iv.iv0.1, iv.iv0.2, iv.iv1.1, iv.iv1.2] } t)

/-- R345, R36: with the engine disabled, flushFIFOs empties both FIFOs in one CR write and changes nothing else; DMA may move
words before it and after it. -/
def Obligations.FlushEmptiesBothFifos : Prop :=
  ∀ s : State, BlockInv s → s.cr.getLsbD 15 = false →
    ∃ u t, DmaMoves s u ∧ exec .flushFIFOs s = .next (t.finish .flushFIFOs .ok)
      ∧ DmaMoves { u with
          inQ := [], outQ := [], events := u.events ++ notifications u { u with inQ := [], outQ := [] } } t

/-- R346: enable of a session, with a phase set where it is AEAD, is one CR write that sets CRYPEN and faults on nothing; on a
rising edge in AES-KeyPrep it records that a key preparation is pending. -/
def Obligations.EnableSetsCrypen : Prop :=
  ∀ (s : State) (cfg : EngineConfig), BlockInv s → s.ctl.cfg = some cfg →
    (cfg.mode = .aesGcm ∨ cfg.mode = .aesCcm → s.ctl.tracker ≠ none) →
    ∃ u v t, AgentMoves s u ∧ exec (.wCr 4 (s.cr ||| 0x00008000)) u = .next v
      ∧ v.cr = s.cr ||| 0x00008000 ∧ v.faults = u.faults
      ∧ AgentMoves { v with
          ctl := if s.cr.getLsbD 15 = false ∧ cfg.mode = .aesKeyPrep then
              { s.ctl with keyPrepPending := true, prepared := false } else s.ctl } t
      ∧ exec .enable s = .next (t.finish .enable .ok)

/-- R347: disable is one CR write that clears CRYPEN and always succeeds, with or without a session; a pass in flight is
aborted, and no key preparation is pending after it. -/
def Obligations.DisableClearsCrypen : Prop :=
  ∀ s : State, BlockInv s →
    ∃ u v t, AgentMoves s u ∧ exec (.wCr 4 (s.cr &&& ~~~(0x00008000 : Word))) u = .next v
      ∧ v.cr = s.cr &&& ~~~(0x00008000 : Word) ∧ v.faults = u.faults ∧ v.busy = false ∧ v.pass = none
      ∧ DmaMoves { v with ctl := { s.ctl with keyPrepPending := false } } t
      ∧ exec .disable s = .next (t.finish .disable .ok)

/-- R348, R402 to R405: each of the five flow predicates is one fresh SR read; only other agents may move besides. isBusy
also records, at the first false after a key preparation enable, that the preparation finished. -/
def Obligations.TheFiveFlowPredicatesReadFresh : Prop :=
  (∀ s : State, BlockInv s →
      ∃ t, exec .isBusy s = .next (t.finish .isBusy (.bool s.busy))
        ∧ AgentMoves { s with
            ctl := if s.busy = false ∧ s.ctl.keyPrepPending = true then
                { s.ctl with prepared := true, keyPrepPending := false } else s.ctl } t)
    ∧ ∀ s : State, BlockInv s →
        (∃ t, AgentMoves s t
            ∧ exec .inputNotFull s = .next (t.finish .inputNotFull (.bool (decide (s.inQ.length < s.params.inDepth)))))
          ∧ (∃ t, AgentMoves s t ∧ exec .inputEmpty s = .next (t.finish .inputEmpty (.bool (decide (s.inQ.length = 0)))))
          ∧ (∃ t, AgentMoves s t
            ∧ exec .outputNotEmpty s = .next (t.finish .outputNotEmpty (.bool (decide (s.outQ.length > 0)))))
          ∧ ∃ t, AgentMoves s t
            ∧ exec .outputFull s = .next (t.finish .outputFull (.bool (decide (s.outQ.length = s.params.outDepth))))

/-- R349 to R352: setInputDMA and setOutputDMA change their own bit of DMACR and keep the other; setInterruptMask writes the
two mask bits, with the notifications that owes; readInterruptStatus returns MISR[0] and MISR[1], the input source first. -/
def Obligations.DmaAndInterruptOperations : Prop :=
  (∀ (s : State) (b : Bool), BlockInv s →
      (∃ u t, AgentMoves s u ∧ exec (.setInputDMA b) s = .next (t.finish .setInputDMA .ok)
          ∧ AgentMoves { u with dmacr := if b = true then s.dmacr ||| 1 else s.dmacr &&& ~~~(1 : Word) } t)
        ∧ ∃ u t, AgentMoves s u ∧ exec (.setOutputDMA b) s = .next (t.finish .setOutputDMA .ok)
          ∧ AgentMoves { u with dmacr := if b = true then s.dmacr ||| 2 else s.dmacr &&& ~~~(2 : Word) } t)
    ∧ ∀ (s : State) (inp out : Bool), BlockInv s →
        (∃ v t, exec (.wImscr 4 ((if out = true then 2 else 0) ||| (if inp = true then 1 else 0))) s = .next v
            ∧ v.imscr.getLsbD 0 = inp ∧ v.imscr.getLsbD 1 = out
            ∧ AgentMoves v t ∧ exec (.setInterruptMask inp out) s = .next (t.finish .setInterruptMask .ok))
          ∧ ∃ t, AgentMoves s t ∧ exec .readInterruptStatus s
              = .next (t.finish .readInterruptStatus (.flags (s.misrWord.getLsbD 0) (s.misrWord.getLsbD 1)))

/-- R400, R401: with the input side detached and room in the input FIFO, pushWord appends the word and never overruns; with
the output side detached and output buffered, popWord removes and returns the oldest word and never underruns; whatever the
other agents do in between, which are steps of theirs (AgentMoves). Where none of them has a turn, the next state is the one
with that word appended or removed, the notifications this owes and the result. That the turns are a list is the model's
(DESIGN CHOICE, log entries 3 and 4). -/
def Obligations.PushWordAppendsAndPopWordTakesTheOldest : Prop :=
  (∀ (s : State) (w : Word), BlockInv s → s.dmacr.getLsbD 0 = false → s.inQ.length < s.params.inDepth →
      ∃ u t, AgentMoves s u ∧ u.inQ.length < u.params.inDepth
        ∧ AgentMoves { u with
            inQ := u.inQ ++ [w], events := u.events ++ notifications u { u with inQ := u.inQ ++ [w] } } t
        ∧ exec (.pushWord w) s = .next (t.finish .pushWord .ok))
    ∧ (∀ (s : State) (w : Word), s.sched = [] → s.dmacr.getLsbD 0 = false → s.inQ.length < s.params.inDepth →
        exec (.pushWord w) s = .next { s with
          inQ := s.inQ ++ [w]
          events := s.events ++ notifications s { s with inQ := s.inQ ++ [w] } ++ [.hostResult .pushWord .ok] })
    ∧ (∀ (s : State) (w : Word) (q : List Word), s.sched = [] → s.dmacr.getLsbD 1 = false → s.outQ = w :: q →
        exec .popWord s = .next { s with
          outQ := q
          events := s.events ++ notifications s { s with outQ := q } ++ [.hostResult .popWord (.okWord w)] })
    ∧ ∀ (s : State) (w : Word) (q : List Word), BlockInv s → s.dmacr.getLsbD 1 = false → s.outQ = w :: q →
        ∃ u q' t, AgentMoves s u ∧ u.outQ = w :: (q ++ q')
          ∧ AgentMoves { u with
              outQ := q ++ q', events := u.events ++ notifications u { u with outQ := q ++ q' } } t
          ∧ exec .popWord s = .next (t.finish .popWord (.okWord w))

/-- R432: an allowed setPhase of an AEAD session, from a quiet block, is one CR write that changes GCM_CCMPH alone and faults on
nothing, and the tracker follows. -/
def Obligations.SetPhaseWritesThePhase : Prop :=
  ∀ (s : State) (cfg : EngineConfig) (p : Phase), BlockInv s → s.ctl.cfg = some cfg →
    cfg.mode = .aesGcm ∨ cfg.mode = .aesCcm →
    (s.ctl.tracker, p) ∈ [(none, Phase.init), (some .init, .header), (some .header, .payload), (some .payload, .final),
      (some .final, .init)] → s.quietNow = true →
    ∃ u v t, DmaMoves s u
      ∧ exec (.wCr 4 ((s.cr &&& ~~~(0x00030000 : Word)) ||| (p.code.setWidth 32 <<< 16))) u = .next v
      ∧ v.cr &&& ~~~(0x00030000 : Word) = s.cr &&& ~~~(0x00030000 : Word) ∧ phaseOf v.cr = p ∧ v.faults = u.faults
      ∧ AgentMoves { v with ctl := { s.ctl with tracker := some p } } t
      ∧ exec (.setPhase p) s = .next (t.finish .setPhase .ok)

/-- R460, R461, R462, R463: save of a session outside the Final phase ends in one of two ways. Either a read of SR, of at most
DRAIN_BUDGET, found the block drained: then that state `u`, which the other agents reached, the input side detached for the
last part, is left as it was but for CRYPEN, both DMA sides detached, and the controller: keys, IV and context are unchanged,
the snapshot holds IV and, for GCM and CCM, the context, with CR & SNAP_MASK under the next id, which is now outstanding, and
the session is closed. Or it times out: only the other agents have moved. The first is certain, with `u` the state save
started from, from a drained block with the input side detached; the second from a block that is not drained and in which no
agent can step. -/
def Obligations.SaveCapturesOrTimesOut : Prop :=
  ∀ (s : State) (cfg : EngineConfig), BlockInv s → s.ctl.cfg = some cfg →
    (cfg.mode = .aesGcm ∨ cfg.mode = .aesCcm → s.ctl.tracker ≠ some .final) →
    let snapOf : State → ContextSnapshot := fun u => {
      id := s.ctl.nextId, cfgBits := s.cr &&& 0x000B03FC, iv := u.iv
      ctx := if cfg.mode = .aesGcm ∨ cfg.mode = .aesCcm then some { working := u.csw, final := u.csf } else none }
    let capturedFrom : State → Prop := fun u => ∃ t : State,
      exec .save s = .next (t.finish .save (.okSnapshot (snapOf u)))
        ∧ t = { u with
            cr := s.cr &&& ~~~(0x00008000 : Word), dmacr := 0, snaps := s.snaps ++ [snapOf u], sched := t.sched
            ctl := { s.ctl with
              outstanding := insertId s.ctl.nextId s.ctl.outstanding, nextId := s.ctl.nextId + 1
              cfg := none, tracker := none, keyPrepPending := false } }
    let timedOut : Prop := ∃ t : State, exec .save s = .next (t.finish .save (.err .drainTimeout)) ∧ AgentMoves s t
    ((∃ v u : State, AgentMoves s v ∧ AgentMoves { v with dmacr := s.dmacr &&& ~~~(1 : Word) } u ∧ u.drained = true
          ∧ capturedFrom u) ∨ timedOut)
      ∧ (s.drained = true → s.dmacr.getLsbD 0 = false → capturedFrom s)
      ∧ (s.drained = false → s.settled → timedOut)

/-- R464, R466: restore of a valid snapshot (R460) that needs no key preparation, into a drained block with DMA detached, writes
its configuration, the key to its slots, IV and, where the snapshot has them, the context words, and nothing else but
what a configuration and a key write clear, then enables; the id is outstanding no more, and the session is open in the
snapshot's phase. -/
def Obligations.RestoreResumesTheSession : Prop :=
  ∀ (s : State) (snap : ContextSnapshot) (key : List WordPair) (cfg : EngineConfig), StateInv s →
    snap.id ∈ s.ctl.outstanding → snap ∈ s.snaps → decodeConfig snap.cfgBits = some cfg → key.length = keyPairs cfg →
    s.drained = true → s.dmacr &&& 3 = 0 → needsKeyPrep cfg = false →
    ∃ u v t : State, u = { s with
          cr := snap.cfgBits, key := u.key, iv := snap.iv, csw := u.csw, csf := u.csf, decKeyReady := false
          finalDone := if s.cr &&& 0x00030000 = snap.cfgBits &&& 0x00030000 then s.finalDone else false
          ctl := { s.ctl with prepared := false }, sched := u.sched }
      ∧ u.inQ = [] ∧ u.outQ = [] ∧ u.busy = false ∧ u.cr = snap.cfgBits ∧ u.dmacr = 0 ∧ u.imscr = s.imscr
      ∧ u.faults = s.faults ∧ u.iv = snap.iv
      ∧ (u.csw, u.csf) = (match snap.ctx with | some c => (c.working, c.final) | none => (s.csw, s.csf))
      ∧ (∀ i : Fin 8, u.key[i.val] =
          if keySlot cfg 0 ≤ i.val / 2 ∧ i.val / 2 < keySlot cfg 0 + keyPairs cfg then
            (let p := key.getD (i.val / 2 - keySlot cfg 0) (0, 0); if i.val % 2 = 0 then p.1 else p.2)
          else s.key[i.val])
      ∧ exec (.wCr 4 (snap.cfgBits ||| 0x00008000)) u = .next v ∧ v.cr = snap.cfgBits ||| 0x00008000
      ∧ v.faults = u.faults
      ∧ AgentMoves { v with
          ctl := { s.ctl with
            prepared := false, outstanding := removeId snap.id s.ctl.outstanding, cfg := some cfg
            tracker := if cfg.mode = .aesGcm ∨ cfg.mode = .aesCcm then some (phaseOf snap.cfgBits) else none
            keyPrepPending := decide (cfg.mode = .aesKeyPrep) } } t
      ∧ exec (.restore (some snap) key) s = .next (t.finish .restore .ok)

/-- R464, R465: restore of a valid snapshot (R460) of an AES ECB or CBC decrypt session, into a drained block with DMA
detached, writes the key to its slots, IV and, where the snapshot has them, the context words, and runs a key preparation
pass. Either the pass ends within DRAIN_BUDGET reads of SR: then the key is prepared at the engine and at the controller and
the session is open and enabled. Or restore returns KeyPrepTimeout: the snapshot is still outstanding, the engine is disabled
with the saved configuration, and no session is open. Which of the two is certain where the engine has no turn, and where its
first turn comes after j of the reads: the two reads of the check and the writes of CR, key, IV, context words (16 or none)
and CR are 2 |key| + 8 host steps and those of the context, each but the first after one of the host's turns. That the turns
are a list is the model's (DESIGN CHOICE, log entries 3 and 4). -/
def Obligations.RestoreOfADecryptSessionPreparesTheKey : Prop :=
  ∀ (s : State) (snap : ContextSnapshot) (key : List WordPair) (cfg : EngineConfig), StateInv s →
    snap.id ∈ s.ctl.outstanding → snap ∈ s.snaps → decodeConfig snap.cfgBits = some cfg → key.length = keyPairs cfg →
    s.drained = true → s.dmacr &&& 3 = 0 → needsKeyPrep cfg = true →
    let loaded : State → Prop := fun t =>
      t = { s with
          cr := t.cr, key := t.key, iv := snap.iv, csw := t.csw, csf := t.csf, decKeyReady := t.decKeyReady
          finalDone := if s.cr &&& 0x00030000 = snap.cfgBits &&& 0x00030000 then s.finalDone else false
          ctl := t.ctl, events := t.events, sched := t.sched }
        ∧ (t.csw, t.csf) = (match snap.ctx with | some c => (c.working, c.final) | none => (s.csw, s.csf))
        ∧ ∀ i : Fin 8, t.key[i.val] =
          if keySlot cfg 0 ≤ i.val / 2 ∧ i.val / 2 < keySlot cfg 0 + keyPairs cfg then
            (let p := key.getD (i.val / 2 - keySlot cfg 0) (0, 0); if i.val % 2 = 0 then p.1 else p.2)
          else s.key[i.val]
    let resumed : Prop := ∃ t : State, exec (.restore (some snap) key) s = .next (t.finish .restore .ok) ∧ loaded t
      ∧ t.cr = snap.cfgBits ||| 0x00008000 ∧ t.decKeyReady = true
      ∧ t.ctl = { s.ctl with
          prepared := true, outstanding := removeId snap.id s.ctl.outstanding, cfg := some cfg, tracker := none
          keyPrepPending := false }
    let timedOut : Prop := ∃ t : State,
      exec (.restore (some snap) key) s = .next (t.finish .restore (.err .keyPrepTimeout)) ∧ loaded t
        ∧ t.cr = snap.cfgBits ∧ t.ctl = { s.ctl with prepared := false, cfg := none, tracker := none }
    (resumed ∨ timedOut)
      ∧ (s.sched = [] → timedOut)
      ∧ ∀ (j : Nat) (rest : List Turn),
          s.sched = List.replicate (2 * key.length + 7 + (if snap.ctx.isSome = true then 16 else 0) + j) .host
              ++ .engine :: rest →
          (j < s.params.drainBudget → resumed) ∧ (s.params.drainBudget ≤ j → timedOut)

/-- R468: the round trip. A session is saved between two blocks; then anything may run that keeps the snapshot; then the
snapshot is restored with the session's key into a drained block with DMA detached. The block after restore agrees with the
block after save on all that a later pass reads, enabled and drained, so every later pass computes what it would have computed
without the preemption. The session is an AEAD one in the Header or Payload phase, or a non-AEAD one that moves data and needs
no key preparation: an AES ECB or CBC decrypt session is RestoreOfADecryptSessionPreparesTheKey's, and an AES-KeyPrep session
is left out, since it moves no data (R287). For a non-AEAD session the equal results rest on the context registers and the
phase being withheld from the core there, and in an ECB mode IV (DEDUCED, log entry 6). -/
def Obligations.SaveThenRestoreResumesBitForBit : Prop :=
  ∀ (s a b : State) (cfg : EngineConfig) (snap : ContextSnapshot) (key : List WordPair) (m : Mode),
    BlockInv s → s.ctl.cfg = some cfg → crMode s.cr = some cfg.mode → cfg.mode = m →
    exec .save s = .next (a.finish .save (.okSnapshot snap)) →
    (m = .aesGcm ∨ m = .aesCcm → phaseOf s.cr = .header ∨ phaseOf s.cr = .payload) →
    m ≠ .aesKeyPrep → ¬((m = .aesEcb ∨ m = .aesCbc) ∧ crDir s.cr = .dec) →
    BlockInv b → snap.id ∈ b.ctl.outstanding → snap ∈ b.snaps → b.drained = true → b.dmacr &&& 3 = 0 →
    key.length = (keySpan m (kszOf m s.cr)).2 →
    (∀ i : Fin 8, keyUsed m (kszOf m s.cr) i.val = true → a.key[i.val] =
        (let p := key.getD (i.val / 2 - (keySpan m (kszOf m s.cr)).1) (0, 0); if i.val % 2 = 0 then p.1 else p.2)) →
    ∃ t : State, exec (.restore (some snap) key) b = .next (t.finish .restore .ok)
      ∧ t.cr = a.cr ||| 0x00008000
      ∧ (∀ i : Fin 8, keyUsed m (kszOf m s.cr) i.val = true → t.key[i.val] = a.key[i.val])
      ∧ t.iv = a.iv ∧ (m = .aesGcm ∨ m = .aesCcm → t.csw = a.csw ∧ t.csf = a.csf)
      ∧ t.inQ = [] ∧ t.outQ = [] ∧ t.busy = false
      ∧ (m = .aesGcm ∨ m = .aesCcm → t.finalDone = false)
      ∧ ∀ din bo,
          (coreBlock m t.cr t.key t.iv t.csw t.csf din bo).1 = (coreBlock m a.cr a.key a.iv a.csw a.csf din bo).1
          ∧ (coreBlock m t.cr t.key t.iv t.csw t.csf din bo).2.1
              = (coreBlock m a.cr a.key a.iv a.csw a.csf din bo).2.1
          ∧ (m = .aesGcm ∨ m = .aesCcm →
              coreBlock m t.cr t.key t.iv t.csw t.csf din bo = coreBlock m a.cr a.key a.iv a.csw a.csf din bo
              ∧ coreTag m t.cr t.key t.iv t.csw t.csf din = coreTag m a.cr a.key a.iv a.csw a.csf din)
end

