-- ==== Sys2Proof/Laws/State.lean ====
section
/-! SUPPORT. One lemma for each field of State and each named update: what the update leaves, and what it writes. They are
simp lemmas, so that no later proof unfolds a record update. -/

namespace Sys2Proof.Machine

variable (s : State)

/-! ### raiseFault -/

@[simp] theorem State.raiseFault_params (k : FaultKind) : (s.raiseFault k).params = s.params := rfl
@[simp] theorem State.raiseFault_cr (k : FaultKind) : (s.raiseFault k).cr = s.cr := rfl
@[simp] theorem State.raiseFault_dmacr (k : FaultKind) : (s.raiseFault k).dmacr = s.dmacr := rfl
@[simp] theorem State.raiseFault_imscr (k : FaultKind) : (s.raiseFault k).imscr = s.imscr := rfl
@[simp] theorem State.raiseFault_key (k : FaultKind) : (s.raiseFault k).key = s.key := rfl
@[simp] theorem State.raiseFault_iv (k : FaultKind) : (s.raiseFault k).iv = s.iv := rfl
@[simp] theorem State.raiseFault_csw (k : FaultKind) : (s.raiseFault k).csw = s.csw := rfl
@[simp] theorem State.raiseFault_csf (k : FaultKind) : (s.raiseFault k).csf = s.csf := rfl
@[simp] theorem State.raiseFault_inQ (k : FaultKind) : (s.raiseFault k).inQ = s.inQ := rfl
@[simp] theorem State.raiseFault_outQ (k : FaultKind) : (s.raiseFault k).outQ = s.outQ := rfl
@[simp] theorem State.raiseFault_busy (k : FaultKind) : (s.raiseFault k).busy = s.busy := rfl
@[simp] theorem State.raiseFault_pass (k : FaultKind) : (s.raiseFault k).pass = s.pass := rfl
@[simp] theorem State.raiseFault_inflight (k : FaultKind) : (s.raiseFault k).inflight = s.inflight := rfl
@[simp] theorem State.raiseFault_decKeyReady (k : FaultKind) : (s.raiseFault k).decKeyReady = s.decKeyReady := rfl
@[simp] theorem State.raiseFault_finalDone (k : FaultKind) : (s.raiseFault k).finalDone = s.finalDone := rfl
@[simp] theorem State.raiseFault_faults (k : FaultKind) : (s.raiseFault k).faults = insertFault k s.faults := rfl
@[simp] theorem State.raiseFault_events (k : FaultKind) : (s.raiseFault k).events = s.events := rfl
@[simp] theorem State.raiseFault_ctl (k : FaultKind) : (s.raiseFault k).ctl = s.ctl := rfl
@[simp] theorem State.raiseFault_src (k : FaultKind) : (s.raiseFault k).src = s.src := rfl
@[simp] theorem State.raiseFault_snk (k : FaultKind) : (s.raiseFault k).snk = s.snk := rfl
@[simp] theorem State.raiseFault_prog (k : FaultKind) : (s.raiseFault k).prog = s.prog := rfl
@[simp] theorem State.raiseFault_reads (k : FaultKind) : (s.raiseFault k).reads = s.reads := rfl
@[simp] theorem State.raiseFault_oks (k : FaultKind) : (s.raiseFault k).oks = s.oks := rfl
@[simp] theorem State.raiseFault_snaps (k : FaultKind) : (s.raiseFault k).snaps = s.snaps := rfl
@[simp] theorem State.raiseFault_sched (k : FaultKind) : (s.raiseFault k).sched = s.sched := rfl
@[simp] theorem State.raiseFault_draws (k : FaultKind) : (s.raiseFault k).draws = s.draws := rfl

/-! ### emit -/

@[simp] theorem State.emit_params (e : Event) : (s.emit e).params = s.params := rfl
@[simp] theorem State.emit_cr (e : Event) : (s.emit e).cr = s.cr := rfl
@[simp] theorem State.emit_dmacr (e : Event) : (s.emit e).dmacr = s.dmacr := rfl
@[simp] theorem State.emit_imscr (e : Event) : (s.emit e).imscr = s.imscr := rfl
@[simp] theorem State.emit_key (e : Event) : (s.emit e).key = s.key := rfl
@[simp] theorem State.emit_iv (e : Event) : (s.emit e).iv = s.iv := rfl
@[simp] theorem State.emit_csw (e : Event) : (s.emit e).csw = s.csw := rfl
@[simp] theorem State.emit_csf (e : Event) : (s.emit e).csf = s.csf := rfl
@[simp] theorem State.emit_inQ (e : Event) : (s.emit e).inQ = s.inQ := rfl
@[simp] theorem State.emit_outQ (e : Event) : (s.emit e).outQ = s.outQ := rfl
@[simp] theorem State.emit_busy (e : Event) : (s.emit e).busy = s.busy := rfl
@[simp] theorem State.emit_pass (e : Event) : (s.emit e).pass = s.pass := rfl
@[simp] theorem State.emit_inflight (e : Event) : (s.emit e).inflight = s.inflight := rfl
@[simp] theorem State.emit_decKeyReady (e : Event) : (s.emit e).decKeyReady = s.decKeyReady := rfl
@[simp] theorem State.emit_finalDone (e : Event) : (s.emit e).finalDone = s.finalDone := rfl
@[simp] theorem State.emit_faults (e : Event) : (s.emit e).faults = s.faults := rfl
@[simp] theorem State.emit_events (e : Event) : (s.emit e).events = s.events ++ [e] := rfl
@[simp] theorem State.emit_ctl (e : Event) : (s.emit e).ctl = s.ctl := rfl
@[simp] theorem State.emit_src (e : Event) : (s.emit e).src = s.src := rfl
@[simp] theorem State.emit_snk (e : Event) : (s.emit e).snk = s.snk := rfl
@[simp] theorem State.emit_prog (e : Event) : (s.emit e).prog = s.prog := rfl
@[simp] theorem State.emit_reads (e : Event) : (s.emit e).reads = s.reads := rfl
@[simp] theorem State.emit_oks (e : Event) : (s.emit e).oks = s.oks := rfl
@[simp] theorem State.emit_snaps (e : Event) : (s.emit e).snaps = s.snaps := rfl
@[simp] theorem State.emit_sched (e : Event) : (s.emit e).sched = s.sched := rfl
@[simp] theorem State.emit_draws (e : Event) : (s.emit e).draws = s.draws := rfl

/-! ### finish -/

@[simp] theorem State.finish_params (op : OpName) (r : OpResult) : (s.finish op r).params = s.params := rfl
@[simp] theorem State.finish_cr (op : OpName) (r : OpResult) : (s.finish op r).cr = s.cr := rfl
@[simp] theorem State.finish_dmacr (op : OpName) (r : OpResult) : (s.finish op r).dmacr = s.dmacr := rfl
@[simp] theorem State.finish_imscr (op : OpName) (r : OpResult) : (s.finish op r).imscr = s.imscr := rfl
@[simp] theorem State.finish_key (op : OpName) (r : OpResult) : (s.finish op r).key = s.key := rfl
@[simp] theorem State.finish_iv (op : OpName) (r : OpResult) : (s.finish op r).iv = s.iv := rfl
@[simp] theorem State.finish_csw (op : OpName) (r : OpResult) : (s.finish op r).csw = s.csw := rfl
@[simp] theorem State.finish_csf (op : OpName) (r : OpResult) : (s.finish op r).csf = s.csf := rfl
@[simp] theorem State.finish_inQ (op : OpName) (r : OpResult) : (s.finish op r).inQ = s.inQ := rfl
@[simp] theorem State.finish_outQ (op : OpName) (r : OpResult) : (s.finish op r).outQ = s.outQ := rfl
@[simp] theorem State.finish_busy (op : OpName) (r : OpResult) : (s.finish op r).busy = s.busy := rfl
@[simp] theorem State.finish_pass (op : OpName) (r : OpResult) : (s.finish op r).pass = s.pass := rfl
@[simp] theorem State.finish_inflight (op : OpName) (r : OpResult) : (s.finish op r).inflight = s.inflight := rfl
@[simp] theorem State.finish_decKeyReady (op : OpName) (r : OpResult) : (s.finish op r).decKeyReady = s.decKeyReady := rfl
@[simp] theorem State.finish_finalDone (op : OpName) (r : OpResult) : (s.finish op r).finalDone = s.finalDone := rfl
@[simp] theorem State.finish_faults (op : OpName) (r : OpResult) : (s.finish op r).faults = s.faults := rfl
@[simp] theorem State.finish_events (op : OpName) (r : OpResult) : (s.finish op r).events = s.events ++ [.hostResult op r] := rfl
@[simp] theorem State.finish_ctl (op : OpName) (r : OpResult) : (s.finish op r).ctl = s.ctl := rfl
@[simp] theorem State.finish_src (op : OpName) (r : OpResult) : (s.finish op r).src = s.src := rfl
@[simp] theorem State.finish_snk (op : OpName) (r : OpResult) : (s.finish op r).snk = s.snk := rfl
@[simp] theorem State.finish_prog (op : OpName) (r : OpResult) : (s.finish op r).prog = s.prog := rfl
@[simp] theorem State.finish_reads (op : OpName) (r : OpResult) : (s.finish op r).reads = s.reads := rfl
@[simp] theorem State.finish_oks (op : OpName) (r : OpResult) : (s.finish op r).oks = s.oks := rfl
@[simp] theorem State.finish_snaps (op : OpName) (r : OpResult) : (s.finish op r).snaps = s.snaps := rfl
@[simp] theorem State.finish_sched (op : OpName) (r : OpResult) : (s.finish op r).sched = s.sched := rfl
@[simp] theorem State.finish_draws (op : OpName) (r : OpResult) : (s.finish op r).draws = s.draws := rfl

/-! ### withCtl -/

@[simp] theorem State.withCtl_params (f : Controller → Controller) : (s.withCtl f).params = s.params := rfl
@[simp] theorem State.withCtl_cr (f : Controller → Controller) : (s.withCtl f).cr = s.cr := rfl
@[simp] theorem State.withCtl_dmacr (f : Controller → Controller) : (s.withCtl f).dmacr = s.dmacr := rfl
@[simp] theorem State.withCtl_imscr (f : Controller → Controller) : (s.withCtl f).imscr = s.imscr := rfl
@[simp] theorem State.withCtl_key (f : Controller → Controller) : (s.withCtl f).key = s.key := rfl
@[simp] theorem State.withCtl_iv (f : Controller → Controller) : (s.withCtl f).iv = s.iv := rfl
@[simp] theorem State.withCtl_csw (f : Controller → Controller) : (s.withCtl f).csw = s.csw := rfl
@[simp] theorem State.withCtl_csf (f : Controller → Controller) : (s.withCtl f).csf = s.csf := rfl
@[simp] theorem State.withCtl_inQ (f : Controller → Controller) : (s.withCtl f).inQ = s.inQ := rfl
@[simp] theorem State.withCtl_outQ (f : Controller → Controller) : (s.withCtl f).outQ = s.outQ := rfl
@[simp] theorem State.withCtl_busy (f : Controller → Controller) : (s.withCtl f).busy = s.busy := rfl
@[simp] theorem State.withCtl_pass (f : Controller → Controller) : (s.withCtl f).pass = s.pass := rfl
@[simp] theorem State.withCtl_inflight (f : Controller → Controller) : (s.withCtl f).inflight = s.inflight := rfl
@[simp] theorem State.withCtl_decKeyReady (f : Controller → Controller) : (s.withCtl f).decKeyReady = s.decKeyReady := rfl
@[simp] theorem State.withCtl_finalDone (f : Controller → Controller) : (s.withCtl f).finalDone = s.finalDone := rfl
@[simp] theorem State.withCtl_faults (f : Controller → Controller) : (s.withCtl f).faults = s.faults := rfl
@[simp] theorem State.withCtl_events (f : Controller → Controller) : (s.withCtl f).events = s.events := rfl
@[simp] theorem State.withCtl_ctl (f : Controller → Controller) : (s.withCtl f).ctl = f s.ctl := rfl
@[simp] theorem State.withCtl_src (f : Controller → Controller) : (s.withCtl f).src = s.src := rfl
@[simp] theorem State.withCtl_snk (f : Controller → Controller) : (s.withCtl f).snk = s.snk := rfl
@[simp] theorem State.withCtl_prog (f : Controller → Controller) : (s.withCtl f).prog = s.prog := rfl
@[simp] theorem State.withCtl_reads (f : Controller → Controller) : (s.withCtl f).reads = s.reads := rfl
@[simp] theorem State.withCtl_oks (f : Controller → Controller) : (s.withCtl f).oks = s.oks := rfl
@[simp] theorem State.withCtl_snaps (f : Controller → Controller) : (s.withCtl f).snaps = s.snaps := rfl
@[simp] theorem State.withCtl_sched (f : Controller → Controller) : (s.withCtl f).sched = s.sched := rfl
@[simp] theorem State.withCtl_draws (f : Controller → Controller) : (s.withCtl f).draws = s.draws := rfl

/-! ### startPass -/

@[simp] theorem State.startPass_params (k : PassKind) (p : Pass) (ws : List Word) : (s.startPass k p ws).params = s.params := rfl
@[simp] theorem State.startPass_cr (k : PassKind) (p : Pass) (ws : List Word) : (s.startPass k p ws).cr = s.cr := rfl
@[simp] theorem State.startPass_dmacr (k : PassKind) (p : Pass) (ws : List Word) : (s.startPass k p ws).dmacr = s.dmacr := rfl
@[simp] theorem State.startPass_imscr (k : PassKind) (p : Pass) (ws : List Word) : (s.startPass k p ws).imscr = s.imscr := rfl
@[simp] theorem State.startPass_key (k : PassKind) (p : Pass) (ws : List Word) : (s.startPass k p ws).key = s.key := rfl
@[simp] theorem State.startPass_iv (k : PassKind) (p : Pass) (ws : List Word) : (s.startPass k p ws).iv = s.iv := rfl
@[simp] theorem State.startPass_csw (k : PassKind) (p : Pass) (ws : List Word) : (s.startPass k p ws).csw = s.csw := rfl
@[simp] theorem State.startPass_csf (k : PassKind) (p : Pass) (ws : List Word) : (s.startPass k p ws).csf = s.csf := rfl
@[simp] theorem State.startPass_inQ (k : PassKind) (p : Pass) (ws : List Word) : (s.startPass k p ws).inQ = s.inQ := rfl
@[simp] theorem State.startPass_outQ (k : PassKind) (p : Pass) (ws : List Word) : (s.startPass k p ws).outQ = s.outQ := rfl
@[simp] theorem State.startPass_busy (k : PassKind) (p : Pass) (ws : List Word) : (s.startPass k p ws).busy = true := rfl
@[simp] theorem State.startPass_pass (k : PassKind) (p : Pass) (ws : List Word) : (s.startPass k p ws).pass = some p := rfl
@[simp] theorem State.startPass_inflight (k : PassKind) (p : Pass) (ws : List Word) : (s.startPass k p ws).inflight = ws := rfl
@[simp] theorem State.startPass_decKeyReady (k : PassKind) (p : Pass) (ws : List Word) : (s.startPass k p ws).decKeyReady = s.decKeyReady := rfl
@[simp] theorem State.startPass_finalDone (k : PassKind) (p : Pass) (ws : List Word) : (s.startPass k p ws).finalDone = s.finalDone := rfl
@[simp] theorem State.startPass_faults (k : PassKind) (p : Pass) (ws : List Word) : (s.startPass k p ws).faults = s.faults := rfl
@[simp] theorem State.startPass_events (k : PassKind) (p : Pass) (ws : List Word) : (s.startPass k p ws).events = s.events ++ [.passStart k] := rfl
@[simp] theorem State.startPass_ctl (k : PassKind) (p : Pass) (ws : List Word) : (s.startPass k p ws).ctl = s.ctl := rfl
@[simp] theorem State.startPass_src (k : PassKind) (p : Pass) (ws : List Word) : (s.startPass k p ws).src = s.src := rfl
@[simp] theorem State.startPass_snk (k : PassKind) (p : Pass) (ws : List Word) : (s.startPass k p ws).snk = s.snk := rfl
@[simp] theorem State.startPass_prog (k : PassKind) (p : Pass) (ws : List Word) : (s.startPass k p ws).prog = s.prog := rfl
@[simp] theorem State.startPass_reads (k : PassKind) (p : Pass) (ws : List Word) : (s.startPass k p ws).reads = s.reads := rfl
@[simp] theorem State.startPass_oks (k : PassKind) (p : Pass) (ws : List Word) : (s.startPass k p ws).oks = s.oks := rfl
@[simp] theorem State.startPass_snaps (k : PassKind) (p : Pass) (ws : List Word) : (s.startPass k p ws).snaps = s.snaps := rfl
@[simp] theorem State.startPass_sched (k : PassKind) (p : Pass) (ws : List Word) : (s.startPass k p ws).sched = s.sched := rfl
@[simp] theorem State.startPass_draws (k : PassKind) (p : Pass) (ws : List Word) : (s.startPass k p ws).draws = s.draws := rfl

/-! ### endPass -/

@[simp] theorem State.endPass_params (k : PassKind) : (s.endPass k).params = s.params := rfl
@[simp] theorem State.endPass_cr (k : PassKind) : (s.endPass k).cr = s.cr := rfl
@[simp] theorem State.endPass_dmacr (k : PassKind) : (s.endPass k).dmacr = s.dmacr := rfl
@[simp] theorem State.endPass_imscr (k : PassKind) : (s.endPass k).imscr = s.imscr := rfl
@[simp] theorem State.endPass_key (k : PassKind) : (s.endPass k).key = s.key := rfl
@[simp] theorem State.endPass_iv (k : PassKind) : (s.endPass k).iv = s.iv := rfl
@[simp] theorem State.endPass_csw (k : PassKind) : (s.endPass k).csw = s.csw := rfl
@[simp] theorem State.endPass_csf (k : PassKind) : (s.endPass k).csf = s.csf := rfl
@[simp] theorem State.endPass_inQ (k : PassKind) : (s.endPass k).inQ = s.inQ := rfl
@[simp] theorem State.endPass_outQ (k : PassKind) : (s.endPass k).outQ = s.outQ := rfl
@[simp] theorem State.endPass_busy (k : PassKind) : (s.endPass k).busy = false := rfl
@[simp] theorem State.endPass_pass (k : PassKind) : (s.endPass k).pass = none := rfl
@[simp] theorem State.endPass_inflight (k : PassKind) : (s.endPass k).inflight = [] := rfl
@[simp] theorem State.endPass_decKeyReady (k : PassKind) : (s.endPass k).decKeyReady = s.decKeyReady := rfl
@[simp] theorem State.endPass_finalDone (k : PassKind) : (s.endPass k).finalDone = s.finalDone := rfl
@[simp] theorem State.endPass_faults (k : PassKind) : (s.endPass k).faults = s.faults := rfl
@[simp] theorem State.endPass_events (k : PassKind) : (s.endPass k).events = s.events ++ [.passDone k] := rfl
@[simp] theorem State.endPass_ctl (k : PassKind) : (s.endPass k).ctl = s.ctl := rfl
@[simp] theorem State.endPass_src (k : PassKind) : (s.endPass k).src = s.src := rfl
@[simp] theorem State.endPass_snk (k : PassKind) : (s.endPass k).snk = s.snk := rfl
@[simp] theorem State.endPass_prog (k : PassKind) : (s.endPass k).prog = s.prog := rfl
@[simp] theorem State.endPass_reads (k : PassKind) : (s.endPass k).reads = s.reads := rfl
@[simp] theorem State.endPass_oks (k : PassKind) : (s.endPass k).oks = s.oks := rfl
@[simp] theorem State.endPass_snaps (k : PassKind) : (s.endPass k).snaps = s.snaps := rfl
@[simp] theorem State.endPass_sched (k : PassKind) : (s.endPass k).sched = s.sched := rfl
@[simp] theorem State.endPass_draws (k : PassKind) : (s.endPass k).draws = s.draws := rfl

/-! ### draw -/

@[simp] theorem State.draw_snd_params : (s.draw.2).params = s.params := rfl
@[simp] theorem State.draw_snd_cr : (s.draw.2).cr = s.cr := rfl
@[simp] theorem State.draw_snd_dmacr : (s.draw.2).dmacr = s.dmacr := rfl
@[simp] theorem State.draw_snd_imscr : (s.draw.2).imscr = s.imscr := rfl
@[simp] theorem State.draw_snd_key : (s.draw.2).key = s.key := rfl
@[simp] theorem State.draw_snd_iv : (s.draw.2).iv = s.iv := rfl
@[simp] theorem State.draw_snd_csw : (s.draw.2).csw = s.csw := rfl
@[simp] theorem State.draw_snd_csf : (s.draw.2).csf = s.csf := rfl
@[simp] theorem State.draw_snd_inQ : (s.draw.2).inQ = s.inQ := rfl
@[simp] theorem State.draw_snd_outQ : (s.draw.2).outQ = s.outQ := rfl
@[simp] theorem State.draw_snd_busy : (s.draw.2).busy = s.busy := rfl
@[simp] theorem State.draw_snd_pass : (s.draw.2).pass = s.pass := rfl
@[simp] theorem State.draw_snd_inflight : (s.draw.2).inflight = s.inflight := rfl
@[simp] theorem State.draw_snd_decKeyReady : (s.draw.2).decKeyReady = s.decKeyReady := rfl
@[simp] theorem State.draw_snd_finalDone : (s.draw.2).finalDone = s.finalDone := rfl
@[simp] theorem State.draw_snd_faults : (s.draw.2).faults = s.faults := rfl
@[simp] theorem State.draw_snd_events : (s.draw.2).events = s.events := rfl
@[simp] theorem State.draw_snd_ctl : (s.draw.2).ctl = s.ctl := rfl
@[simp] theorem State.draw_snd_src : (s.draw.2).src = s.src := rfl
@[simp] theorem State.draw_snd_snk : (s.draw.2).snk = s.snk := rfl
@[simp] theorem State.draw_snd_prog : (s.draw.2).prog = s.prog := rfl
@[simp] theorem State.draw_snd_reads : (s.draw.2).reads = s.reads := rfl
@[simp] theorem State.draw_snd_oks : (s.draw.2).oks = s.oks := rfl
@[simp] theorem State.draw_snd_snaps : (s.draw.2).snaps = s.snaps := rfl
@[simp] theorem State.draw_snd_sched : (s.draw.2).sched = s.sched := rfl
@[simp] theorem State.draw_snd_draws : (s.draw.2).draws = s.draws + 1 := rfl

@[simp] theorem State.draw_fst : s.draw.1 = Config.draw s.draws := rfl

/-! ### notifyOne and notifyCheck: only the event history can change -/

@[simp] theorem notifyOne_params (before : State) (src : Source) : (notifyOne before src s).params = s.params := by
  unfold notifyOne; split <;> rfl
@[simp] theorem notifyOne_cr (before : State) (src : Source) : (notifyOne before src s).cr = s.cr := by
  unfold notifyOne; split <;> rfl
@[simp] theorem notifyOne_dmacr (before : State) (src : Source) : (notifyOne before src s).dmacr = s.dmacr := by
  unfold notifyOne; split <;> rfl
@[simp] theorem notifyOne_imscr (before : State) (src : Source) : (notifyOne before src s).imscr = s.imscr := by
  unfold notifyOne; split <;> rfl
@[simp] theorem notifyOne_key (before : State) (src : Source) : (notifyOne before src s).key = s.key := by
  unfold notifyOne; split <;> rfl
@[simp] theorem notifyOne_iv (before : State) (src : Source) : (notifyOne before src s).iv = s.iv := by
  unfold notifyOne; split <;> rfl
@[simp] theorem notifyOne_csw (before : State) (src : Source) : (notifyOne before src s).csw = s.csw := by
  unfold notifyOne; split <;> rfl
@[simp] theorem notifyOne_csf (before : State) (src : Source) : (notifyOne before src s).csf = s.csf := by
  unfold notifyOne; split <;> rfl
@[simp] theorem notifyOne_inQ (before : State) (src : Source) : (notifyOne before src s).inQ = s.inQ := by
  unfold notifyOne; split <;> rfl
@[simp] theorem notifyOne_outQ (before : State) (src : Source) : (notifyOne before src s).outQ = s.outQ := by
  unfold notifyOne; split <;> rfl
@[simp] theorem notifyOne_busy (before : State) (src : Source) : (notifyOne before src s).busy = s.busy := by
  unfold notifyOne; split <;> rfl
@[simp] theorem notifyOne_pass (before : State) (src : Source) : (notifyOne before src s).pass = s.pass := by
  unfold notifyOne; split <;> rfl
@[simp] theorem notifyOne_inflight (before : State) (src : Source) : (notifyOne before src s).inflight = s.inflight := by
  unfold notifyOne; split <;> rfl
@[simp] theorem notifyOne_decKeyReady (before : State) (src : Source) : (notifyOne before src s).decKeyReady = s.decKeyReady := by
  unfold notifyOne; split <;> rfl
@[simp] theorem notifyOne_finalDone (before : State) (src : Source) : (notifyOne before src s).finalDone = s.finalDone := by
  unfold notifyOne; split <;> rfl
@[simp] theorem notifyOne_faults (before : State) (src : Source) : (notifyOne before src s).faults = s.faults := by
  unfold notifyOne; split <;> rfl
@[simp] theorem notifyOne_ctl (before : State) (src : Source) : (notifyOne before src s).ctl = s.ctl := by
  unfold notifyOne; split <;> rfl
@[simp] theorem notifyOne_src (before : State) (src : Source) : (notifyOne before src s).src = s.src := by
  unfold notifyOne; split <;> rfl
@[simp] theorem notifyOne_snk (before : State) (src : Source) : (notifyOne before src s).snk = s.snk := by
  unfold notifyOne; split <;> rfl
@[simp] theorem notifyOne_prog (before : State) (src : Source) : (notifyOne before src s).prog = s.prog := by
  unfold notifyOne; split <;> rfl
@[simp] theorem notifyOne_reads (before : State) (src : Source) : (notifyOne before src s).reads = s.reads := by
  unfold notifyOne; split <;> rfl
@[simp] theorem notifyOne_oks (before : State) (src : Source) : (notifyOne before src s).oks = s.oks := by
  unfold notifyOne; split <;> rfl
@[simp] theorem notifyOne_snaps (before : State) (src : Source) : (notifyOne before src s).snaps = s.snaps := by
  unfold notifyOne; split <;> rfl
@[simp] theorem notifyOne_sched (before : State) (src : Source) : (notifyOne before src s).sched = s.sched := by
  unfold notifyOne; split <;> rfl
@[simp] theorem notifyOne_draws (before : State) (src : Source) : (notifyOne before src s).draws = s.draws := by
  unfold notifyOne; split <;> rfl
@[simp] theorem notifyCheck_params (before : State) : (notifyCheck before s).params = s.params := by simp [notifyCheck]
@[simp] theorem notifyCheck_cr (before : State) : (notifyCheck before s).cr = s.cr := by simp [notifyCheck]
@[simp] theorem notifyCheck_dmacr (before : State) : (notifyCheck before s).dmacr = s.dmacr := by simp [notifyCheck]
@[simp] theorem notifyCheck_imscr (before : State) : (notifyCheck before s).imscr = s.imscr := by simp [notifyCheck]
@[simp] theorem notifyCheck_key (before : State) : (notifyCheck before s).key = s.key := by simp [notifyCheck]
@[simp] theorem notifyCheck_iv (before : State) : (notifyCheck before s).iv = s.iv := by simp [notifyCheck]
@[simp] theorem notifyCheck_csw (before : State) : (notifyCheck before s).csw = s.csw := by simp [notifyCheck]
@[simp] theorem notifyCheck_csf (before : State) : (notifyCheck before s).csf = s.csf := by simp [notifyCheck]
@[simp] theorem notifyCheck_inQ (before : State) : (notifyCheck before s).inQ = s.inQ := by simp [notifyCheck]
@[simp] theorem notifyCheck_outQ (before : State) : (notifyCheck before s).outQ = s.outQ := by simp [notifyCheck]
@[simp] theorem notifyCheck_busy (before : State) : (notifyCheck before s).busy = s.busy := by simp [notifyCheck]
@[simp] theorem notifyCheck_pass (before : State) : (notifyCheck before s).pass = s.pass := by simp [notifyCheck]
@[simp] theorem notifyCheck_inflight (before : State) : (notifyCheck before s).inflight = s.inflight := by simp [notifyCheck]
@[simp] theorem notifyCheck_decKeyReady (before : State) : (notifyCheck before s).decKeyReady = s.decKeyReady := by simp [notifyCheck]
@[simp] theorem notifyCheck_finalDone (before : State) : (notifyCheck before s).finalDone = s.finalDone := by simp [notifyCheck]
@[simp] theorem notifyCheck_faults (before : State) : (notifyCheck before s).faults = s.faults := by simp [notifyCheck]
@[simp] theorem notifyCheck_ctl (before : State) : (notifyCheck before s).ctl = s.ctl := by simp [notifyCheck]
@[simp] theorem notifyCheck_src (before : State) : (notifyCheck before s).src = s.src := by simp [notifyCheck]
@[simp] theorem notifyCheck_snk (before : State) : (notifyCheck before s).snk = s.snk := by simp [notifyCheck]
@[simp] theorem notifyCheck_prog (before : State) : (notifyCheck before s).prog = s.prog := by simp [notifyCheck]
@[simp] theorem notifyCheck_reads (before : State) : (notifyCheck before s).reads = s.reads := by simp [notifyCheck]
@[simp] theorem notifyCheck_oks (before : State) : (notifyCheck before s).oks = s.oks := by simp [notifyCheck]
@[simp] theorem notifyCheck_snaps (before : State) : (notifyCheck before s).snaps = s.snaps := by simp [notifyCheck]
@[simp] theorem notifyCheck_sched (before : State) : (notifyCheck before s).sched = s.sched := by simp [notifyCheck]
@[simp] theorem notifyCheck_draws (before : State) : (notifyCheck before s).draws = s.draws := by simp [notifyCheck]

/-! ### bindOk and blockReset -/

@[simp] theorem State.bindOk_params (ok : Bool) : (s.bindOk ok).params = s.params := rfl
@[simp] theorem State.bindOk_cr (ok : Bool) : (s.bindOk ok).cr = s.cr := rfl
@[simp] theorem State.bindOk_dmacr (ok : Bool) : (s.bindOk ok).dmacr = s.dmacr := rfl
@[simp] theorem State.bindOk_imscr (ok : Bool) : (s.bindOk ok).imscr = s.imscr := rfl
@[simp] theorem State.bindOk_key (ok : Bool) : (s.bindOk ok).key = s.key := rfl
@[simp] theorem State.bindOk_iv (ok : Bool) : (s.bindOk ok).iv = s.iv := rfl
@[simp] theorem State.bindOk_csw (ok : Bool) : (s.bindOk ok).csw = s.csw := rfl
@[simp] theorem State.bindOk_csf (ok : Bool) : (s.bindOk ok).csf = s.csf := rfl
@[simp] theorem State.bindOk_inQ (ok : Bool) : (s.bindOk ok).inQ = s.inQ := rfl
@[simp] theorem State.bindOk_outQ (ok : Bool) : (s.bindOk ok).outQ = s.outQ := rfl
@[simp] theorem State.bindOk_busy (ok : Bool) : (s.bindOk ok).busy = s.busy := rfl
@[simp] theorem State.bindOk_pass (ok : Bool) : (s.bindOk ok).pass = s.pass := rfl
@[simp] theorem State.bindOk_inflight (ok : Bool) : (s.bindOk ok).inflight = s.inflight := rfl
@[simp] theorem State.bindOk_decKeyReady (ok : Bool) : (s.bindOk ok).decKeyReady = s.decKeyReady := rfl
@[simp] theorem State.bindOk_finalDone (ok : Bool) : (s.bindOk ok).finalDone = s.finalDone := rfl
@[simp] theorem State.bindOk_faults (ok : Bool) : (s.bindOk ok).faults = s.faults := rfl
@[simp] theorem State.bindOk_events (ok : Bool) : (s.bindOk ok).events = s.events := rfl
@[simp] theorem State.bindOk_ctl (ok : Bool) : (s.bindOk ok).ctl = s.ctl := rfl
@[simp] theorem State.bindOk_src (ok : Bool) : (s.bindOk ok).src = s.src := rfl
@[simp] theorem State.bindOk_snk (ok : Bool) : (s.bindOk ok).snk = s.snk := rfl
@[simp] theorem State.bindOk_prog (ok : Bool) : (s.bindOk ok).prog = s.prog := rfl
@[simp] theorem State.bindOk_reads (ok : Bool) : (s.bindOk ok).reads = s.reads := rfl
@[simp] theorem State.bindOk_oks (ok : Bool) : (s.bindOk ok).oks = s.oks ++ [ok] := rfl
@[simp] theorem State.bindOk_snaps (ok : Bool) : (s.bindOk ok).snaps = s.snaps := rfl
@[simp] theorem State.bindOk_sched (ok : Bool) : (s.bindOk ok).sched = s.sched := rfl
@[simp] theorem State.bindOk_draws (ok : Bool) : (s.bindOk ok).draws = s.draws := rfl
@[simp] theorem blockReset_params : (blockReset s).params = s.params := by simp [blockReset]
@[simp] theorem blockReset_cr : (blockReset s).cr = State.reset.cr := by simp [blockReset]
@[simp] theorem blockReset_dmacr : (blockReset s).dmacr = State.reset.dmacr := by simp [blockReset]
@[simp] theorem blockReset_imscr : (blockReset s).imscr = State.reset.imscr := by simp [blockReset]
@[simp] theorem blockReset_key : (blockReset s).key = State.reset.key := by simp [blockReset]
@[simp] theorem blockReset_iv : (blockReset s).iv = State.reset.iv := by simp [blockReset]
@[simp] theorem blockReset_csw : (blockReset s).csw = State.reset.csw := by simp [blockReset]
@[simp] theorem blockReset_csf : (blockReset s).csf = State.reset.csf := by simp [blockReset]
@[simp] theorem blockReset_inQ : (blockReset s).inQ = State.reset.inQ := by simp [blockReset]
@[simp] theorem blockReset_outQ : (blockReset s).outQ = State.reset.outQ := by simp [blockReset]
@[simp] theorem blockReset_busy : (blockReset s).busy = State.reset.busy := by simp [blockReset]
@[simp] theorem blockReset_pass : (blockReset s).pass = State.reset.pass := by simp [blockReset]
@[simp] theorem blockReset_inflight : (blockReset s).inflight = State.reset.inflight := by simp [blockReset]
@[simp] theorem blockReset_decKeyReady : (blockReset s).decKeyReady = State.reset.decKeyReady := by simp [blockReset]
@[simp] theorem blockReset_finalDone : (blockReset s).finalDone = State.reset.finalDone := by simp [blockReset]
@[simp] theorem blockReset_faults : (blockReset s).faults = s.faults := by simp [blockReset]
@[simp] theorem blockReset_ctl : (blockReset s).ctl = { Controller.reset with nextId := s.ctl.nextId } := by simp [blockReset]
@[simp] theorem blockReset_src : (blockReset s).src = s.src := by simp [blockReset]
@[simp] theorem blockReset_snk : (blockReset s).snk = s.snk := by simp [blockReset]
@[simp] theorem blockReset_prog : (blockReset s).prog = s.prog := by simp [blockReset]
@[simp] theorem blockReset_reads : (blockReset s).reads = s.reads := by simp [blockReset]
@[simp] theorem blockReset_oks : (blockReset s).oks = s.oks := by simp [blockReset]
@[simp] theorem blockReset_snaps : (blockReset s).snaps = s.snaps := by simp [blockReset]
@[simp] theorem blockReset_sched : (blockReset s).sched = s.sched := by simp [blockReset]
@[simp] theorem blockReset_draws : (blockReset s).draws = s.draws := by simp [blockReset]

end Sys2Proof.Machine
end

