-- ==== Sys2Proof/Laws/Ops.lean ====
section
/-! SUPPORT. What each shared operation of Machine/Ops.lean can do, said once: the fault set, the notification check, the
transaction step, and the rows that only read. -/

namespace Sys2Proof.Machine

variable (s : State)

/-! ### The fault set -/

theorem mem_insertFault {k j : FaultKind} {l : List FaultKind} : j ∈ insertFault k l ↔ j = k ∨ j ∈ l := by
  induction l with
  | nil => simp [insertFault]
  | cons a l ih =>
    unfold insertFault
    split
    · next h => subst h; simp
    · split
      · simp
      · simp [ih, or_left_comm]

theorem FaultKind.code_injective {a b : FaultKind} (h : a.code = b.code) : a = b := by
  cases a <;> cases b <;> first | rfl | (simp [FaultKind.code] at h)

theorem insertFault_sorted {k : FaultKind} {l : List FaultKind} (h : l.Pairwise fun a b => a.code < b.code) :
    (insertFault k l).Pairwise fun a b => a.code < b.code := by
  induction l with
  | nil => simp [insertFault]
  | cons a l ih =>
    obtain ⟨ha, hl⟩ := List.pairwise_cons.1 h
    unfold insertFault
    split
    · exact h
    · next hne =>
      split
      · next hlt =>
        refine List.pairwise_cons.2 ⟨fun b hb => ?_, h⟩
        rcases List.mem_cons.1 hb with rfl | hb
        · exact hlt
        · exact hlt.trans (ha b hb)
      · next hge =>
        refine List.pairwise_cons.2 ⟨fun b hb => ?_, ih hl⟩
        rcases mem_insertFault.1 hb with rfl | hb
        · exact lt_of_le_of_ne (not_lt.1 hge) fun e => hne (FaultKind.code_injective e).symm
        · exact ha b hb

/-! ### The set of outstanding ids -/

theorem mem_insertId {n m : Nat} {l : List Nat} : m ∈ insertId n l ↔ m = n ∨ m ∈ l := by
  induction l with
  | nil => simp [insertId]
  | cons a l ih =>
    unfold insertId
    split
    · next h => subst h; simp
    · split
      · simp
      · simp [ih, or_left_comm]

theorem insertId_rising {n : Nat} {l : List Nat} (h : l.Pairwise (· < ·)) : (insertId n l).Pairwise (· < ·) := by
  induction l with
  | nil => simp [insertId]
  | cons a l ih =>
    obtain ⟨ha, hl⟩ := List.pairwise_cons.1 h
    unfold insertId
    split
    · exact h
    · next hne =>
      split
      · next hlt =>
        refine List.pairwise_cons.2 ⟨fun b hb => ?_, h⟩
        rcases List.mem_cons.1 hb with rfl | hb
        · exact hlt
        · exact lt_trans hlt (ha b hb)
      · next hge =>
        refine List.pairwise_cons.2 ⟨fun b hb => ?_, ih hl⟩
        rcases mem_insertId.1 hb with rfl | hb
        · omega
        · exact ha b hb

theorem mem_removeId {n m : Nat} {l : List Nat} : m ∈ removeId n l ↔ m ∈ l ∧ m ≠ n := by simp [removeId]

theorem removeId_rising {n : Nat} {l : List Nat} (h : l.Pairwise (· < ·)) : (removeId n l).Pairwise (· < ·) :=
  h.filter _

/-! ### NotifyCheck -/

theorem misrBit_congr {s t : State} (hi : s.imscr = t.imscr) (hp : s.params = t.params) (hq : s.inQ = t.inQ)
    (ho : s.outQ = t.outQ) (src : Source) : s.misrBit src = t.misrBit src := by
  cases src <;> simp [State.misrBit, State.misrWord, State.risrWord, State.ofne, State.ifnf, hi, hp, hq, ho]

@[simp] theorem notifyOne_misrBit (before : State) (a b : Source) : (notifyOne before a s).misrBit b = s.misrBit b := by
  apply misrBit_congr <;> simp

theorem notifyOne_events (before : State) (src : Source) :
    (notifyOne before src s).events
      = s.events ++ if before.misrBit src = s.misrBit src then [] else [.notify src (s.misrBit src)] := by
  unfold notifyOne
  split <;> simp

/-- The one thing NotifyCheck writes (R282). -/
theorem notifyCheck_events (before after : State) :
    (notifyCheck before after).events = after.events ++ notifications before after := by
  simp [notifyCheck, notifyOne_events, notifications]

@[simp] theorem notifyCheck_self : notifyCheck s s = s := by simp [notifyCheck, notifyOne]

/-- A step that leaves IMSCR, the parameters and both FIFOs alone notifies nothing. -/
theorem notifyCheck_eq_self {s t : State} (hi : t.imscr = s.imscr) (hp : t.params = s.params) (hq : t.inQ = s.inQ)
    (ho : t.outQ = s.outQ) : notifyCheck s t = t := by
  have h := fun src => misrBit_congr hi hp hq ho src
  simp [notifyCheck, notifyOne, h]

/-- Everything restore can do: refuse what is no valid snapshot and change nothing else, or go on with a valid one (R460,
R464). -/
theorem opRestore_cases (arg : Option ContextSnapshot) (key : List WordPair) :
    (arg.bind (validConfig · s) = none ∧ opRestore arg key s = s.finish .restore (.err .snapshotConsumed))
      ∨ ∃ snap cfg, arg = some snap ∧ snap.id ∈ s.ctl.outstanding ∧ snap ∈ s.snaps
          ∧ decodeConfig snap.cfgBits = some cfg ∧ opRestore arg key s = restoreBody cfg snap key s := by
  cases arg with
  | none => exact .inl ⟨rfl, rfl⟩
  | some snap =>
    unfold opRestore
    cases h : validConfig snap s with
    | none => exact .inl ⟨by simpa using h, by simp only [h]⟩
    | some cfg =>
      have h' := h
      unfold validConfig at h'
      split at h'
      · next hv => exact .inr ⟨snap, cfg, rfl, hv.1, hv.2, h', by simp only [h]⟩
      · cases h'

/-- R141: every 9-bit selector is selected by a row. -/
theorem busRows_total (t : BitVec 9) : ∃ row, busRows.find? (·.selects t) = some row := by
  have h : ∀ t : BitVec 9, (busRows.find? (·.selects t)).isSome = true := by decide +kernel
  exact Option.isSome_iff_exists.1 (h t)

/-- The one kind of record the decoder rejects: a configure of a reserved configuration (R148 (a), R153, R159). -/
theorem decode_error {r : Record} {e : DecodeError} (h : decode r = .error e) :
    ∃ args, r = .op 0 args ∧ decodeConfig (argWord args 0) = none ∧ e = .reservedConfig := by
  cases r with
  | bus sel code data =>
    obtain ⟨row, hr⟩ := busRows_total sel
    simp [decode, parseBus, hr] at h
  | op sel args =>
    simp only [decode, parseOp] at h
    split at h
    · next h0 =>
      refine ⟨args, by rw [BitVec.eq_of_toNat_eq (x := sel) (y := 0) h0], ?_⟩
      unfold parseConfigure at h
      split at h
      · cases h
      · next hn => cases h; exact ⟨hn, rfl⟩
    all_goals cases h

/-- R101: of all widths only 4 is written as a record's width 4. -/
theorem readWidth_widthCode_eq_four (n : Nat) : readWidth (widthCode n) = 4 ↔ n = 4 := by
  by_cases h : n = 4
  · subst h; decide
  · by_cases h2 : 1 ≤ n ∧ n < 256
    · have h0 : BitVec.ofNat 8 n ≠ 0 := fun e => by
        have := congrArg BitVec.toNat e
        simp at this
        omega
      rw [widthCode, if_neg h, if_pos h2, readWidth, if_neg (mt beq_iff_eq.1 h0), BitVec.toNat_ofNat]
      omega
    · simp [readWidth, widthCode, h, h2]

/-! ### The transaction step -/

/-- Everything a transaction can do: record one fault and return nothing, or do what its row says and check the
notifications. -/
theorem transaction_cases (width : Nat) (row : Row) :
    (∃ k, transaction width row s = (s.raiseFault k, none) ∧ (width ≠ 4 ∧ k = .busError ∨ width = 4 ∧ row s = .fault k)) ∨
    (∃ s' v, width = 4 ∧ row s = .done s' v ∧ transaction width row s = (notifyCheck s s', v)) := by
  unfold transaction
  split
  · next h => exact .inl ⟨_, rfl, .inl ⟨h, rfl⟩⟩
  · next h =>
    have h4 : width = 4 := not_not.1 h
    cases hr : row s with
    | fault k => exact .inl ⟨k, by simp, .inr ⟨h4, rfl⟩⟩
    | done s' v => exact .inr ⟨s', v, h4, rfl, by simp⟩

theorem transaction_width {width : Nat} (h : width ≠ 4) (row : Row) :
    transaction width row s = (s.raiseFault .busError, none) := by simp [transaction, h]

theorem transaction_fault {row : Row} {k : FaultKind} (h : row s = .fault k) :
    transaction 4 row s = (s.raiseFault k, none) := by simp [transaction, h]

theorem transaction_done {row : Row} {s' : State} {v : Option Word} (h : row s = .done s' v) :
    transaction 4 row s = (notifyCheck s s', v) := by simp [transaction, h]

theorem hostTransaction_width {width : Nat} (h : width ≠ 4) (row : Row) :
    hostTransaction width row s = s.raiseFault .busError := by simp [hostTransaction, transaction_width s h]; rfl

theorem hostTransaction_fault {row : Row} {k : FaultKind} (h : row s = .fault k) :
    hostTransaction 4 row s = s.raiseFault k := by simp [hostTransaction, transaction_fault s h]; rfl

/-- A write row that faults on nothing: what the row says, and the notifications it owes. -/
theorem hostTransaction_write {row : Row} {s' : State} (h : row s = .done s' none) :
    hostTransaction 4 row s = notifyCheck s s' := by
  unfold hostTransaction
  rw [transaction_done s h]
  simp only [Option.toList_none, List.append_nil]

/-- A read row that faults on nothing: the same, and the value goes to the host's record of reads. -/
theorem hostTransaction_read {row : Row} {s' : State} {x : Word} (h : row s = .done s' (some x)) :
    hostTransaction 4 row s = { notifyCheck s s' with reads := s'.reads ++ [x] } := by
  unfold hostTransaction
  rw [transaction_done s h]
  simp only [Option.toList_some, notifyCheck_reads]

/-! ### The rows that read a register and change nothing -/

@[simp] theorem rd_rCr : s.rd rowRCr = (s.cr, s) := by simp [State.rd, transaction, rowRCr]
@[simp] theorem rd_rSr : s.rd rowRSr = (s.srWord, s) := by simp [State.rd, transaction, rowRSr]
@[simp] theorem rd_rDmacr : s.rd rowRDmacr = (s.dmacr, s) := by simp [State.rd, transaction, rowRDmacr]
@[simp] theorem rd_rImscr : s.rd rowRImscr = (s.imscr, s) := by simp [State.rd, transaction, rowRImscr]
@[simp] theorem rd_rRisr : s.rd rowRRisr = (s.risrWord, s) := by simp [State.rd, transaction, rowRRisr]
@[simp] theorem rd_rMisr : s.rd rowRMisr = (s.misrWord, s) := by simp [State.rd, transaction, rowRMisr]

theorem rd_rIv (h : s.busy = false) (v : Fin 4) : s.rd (rowRIv v) = (get4 s.iv v, s) := by
  simp [State.rd, transaction, rowRIv, h]
theorem rd_rCsw (h : s.busy = false) (x : Fin 8) : s.rd (rowRCsw x) = (get8 s.csw x, s) := by
  simp [State.rd, transaction, rowRCsw, h]
theorem rd_rCsf (h : s.busy = false) (x : Fin 8) : s.rd (rowRCsf x) = (get8 s.csf x, s) := by
  simp [State.rd, transaction, rowRCsf, h]

/-! ### The rows that write a register and nothing else -/

@[simp] theorem wr_wDmacr (v : Word) : s.wr (rowWDmacr v) = { s with dmacr := v &&& lowTwoMask } := by
  simp only [State.wr, transaction, rowWDmacr]
  exact notifyCheck_eq_self rfl rfl rfl rfl

theorem wr_wKey (h : s.busy = false) (k : Fin 8) (v : Word) :
    s.wr (rowWKey k v) = { s with key := set8 s.key k v, decKeyReady := false } := by
  simp only [State.wr, transaction, rowWKey, h]
  exact notifyCheck_eq_self rfl rfl rfl rfl

theorem wr_wIv (h : s.busy = false) (v : Fin 4) (x : Word) :
    s.wr (rowWIv v x) = { s with iv := set4 s.iv v x } := by
  simp only [State.wr, transaction, rowWIv, h]
  exact notifyCheck_eq_self rfl rfl rfl rfl

theorem wr_wCsw (h : s.busy = false) (x : Fin 8) (y : Word) :
    s.wr (rowWCsw x y) = { s with csw := set8 s.csw x y } := by
  simp only [State.wr, transaction, rowWCsw, h]
  exact notifyCheck_eq_self rfl rfl rfl rfl

theorem wr_wCsf (h : s.busy = false) (x : Fin 8) (y : Word) :
    s.wr (rowWCsf x y) = { s with csf := set8 s.csf x y } := by
  simp only [State.wr, transaction, rowWCsf, h]
  exact notifyCheck_eq_self rfl rfl rfl rfl

/-- A CR write by the controller: the first failing check recorded, or the effects of R201 with their notifications. -/
theorem wr_wCr (v : Word) : s.wr (rowWCr v) =
    match crFault v s with
    | some k => s.raiseFault k
    | none => notifyCheck s (crApply v s) := by
  simp only [State.wr, transaction, rowWCr]
  cases crFault v s <;> simp

/-! ### Status bits -/

@[simp] theorem srWord_bit0 : s.srWord.getLsbD 0 = s.ifem := by
  unfold State.srWord; cases s.busy <;> cases s.offu <;> cases s.ofne <;> cases s.ifnf <;> cases s.ifem <;> decide
@[simp] theorem srWord_bit1 : s.srWord.getLsbD 1 = s.ifnf := by
  unfold State.srWord; cases s.busy <;> cases s.offu <;> cases s.ofne <;> cases s.ifnf <;> cases s.ifem <;> decide
@[simp] theorem srWord_bit2 : s.srWord.getLsbD 2 = s.ofne := by
  unfold State.srWord; cases s.busy <;> cases s.offu <;> cases s.ofne <;> cases s.ifnf <;> cases s.ifem <;> decide
@[simp] theorem srWord_bit3 : s.srWord.getLsbD 3 = s.offu := by
  unfold State.srWord; cases s.busy <;> cases s.offu <;> cases s.ofne <;> cases s.ifnf <;> cases s.ifem <;> decide
@[simp] theorem srWord_bit4 : s.srWord.getLsbD 4 = s.busy := by
  unfold State.srWord; cases s.busy <;> cases s.offu <;> cases s.ofne <;> cases s.ifnf <;> cases s.ifem <;> decide

/-- `DrainedSR` of a fresh SR read is `Drained` (R14). -/
@[simp] theorem drainedSr_srWord : drainedSr s.srWord = s.drained := by
  unfold drainedSr
  rw [srWord_bit0, srWord_bit2, srWord_bit4]
  unfold State.drained State.ifem State.ofne
  cases s.outQ <;> simp

end Sys2Proof.Machine
end

