-- ==== Sys2Proof/Laws/Agents.lean ====
section
/-! SUPPORT. What the agents beside the host can do, said once for each step and once for the gap between two host steps
of one operation: the engine's five steps, the two DMA steps, `AgentMoves` and `DmaMoves`. -/

namespace Sys2Proof.Machine

variable (s : State)

/-! ### The notification check as one update -/

/-- NotifyCheck writes the event history and nothing else. -/
theorem notifyCheck_eq (before after : State) :
    notifyCheck before after = { after with events := after.events ++ notifications before after } := by
  have h := notifyCheck_events before after
  rw [← h]
  unfold notifyCheck notifyOne
  split <;> split <;> rfl

theorem notifications_fromAgent (before after : State) : (notifications before after).all Event.fromAgent = true := by
  unfold notifications
  split <;> split <;> simp [Event.fromAgent]

theorem notifications_isNotify (before after : State) : (notifications before after).all Event.isNotify = true := by
  unfold notifications
  split <;> split <;> simp [Event.isNotify]

/-! ### The engine's steps: what each can answer -/

theorem startBlock_some {t : State} (h : startBlock s = some t) :
    ∃ kind bi bo, shape s.params s.cr s.finalDone = some (kind, bi, bo) ∧ crypen s.cr = true ∧ s.busy = false
      ∧ bi ≤ s.inQ.length ∧ s.outQ.length + bo ≤ s.params.outDepth
      ∧ ((keyMissing s = true ∧ t = s.raiseFault .keyNotPrepared)
        ∨ (keyMissing s = false ∧ t = notifyCheck s
            ({ s with inQ := s.inQ.drop bi }.startPass kind (passOf kind bo) (s.inQ.take bi)))) := by
  unfold startBlock at h
  split at h
  · cases h
  · next kind bi bo hs =>
    split at h
    · next hc =>
      simp only [Bool.and_eq_true, Bool.not_eq_true', decide_eq_true_eq] at hc
      refine ⟨kind, bi, bo, hs, hc.1.1.1, hc.1.1.2, hc.1.2, hc.2, ?_⟩
      split at h
      · next hk => exact .inl ⟨hk, (Option.some.inj h).symm⟩
      · next hk => exact .inr ⟨by simpa using hk, (Option.some.inj h).symm⟩
    · cases h

theorem completeData_some {bo : Nat} {t : State} (h : completeData bo s = some t) :
    ∃ m r, crMode s.cr = some m ∧ crypen s.cr = true
      ∧ r = coreBlock m s.cr s.key s.iv s.csw s.csf (s.inflight.map (swapWord (crWidth s.cr))) bo
      ∧ t = notifyCheck s ({ s with
          outQ := s.outQ ++ r.1.map (swapWord (crWidth s.cr)), iv := r.2.1, csw := r.2.2.1, csf := r.2.2.2 }.endPass .data) := by
  unfold completeData at h
  split at h
  · cases h
  · next m hm =>
    split at h
    · next hc => exact ⟨m, _, hm, hc, rfl, (Option.some.inj h).symm⟩
    · cases h

theorem completeKeyPrep_some {t : State} (h : completeKeyPrep s = some t) :
    crypen s.cr = true ∧ t = notifyCheck s ({ s with decKeyReady := true }.endPass .keyPrep) := by
  unfold completeKeyPrep at h
  split at h
  · next hc => exact ⟨hc, (Option.some.inj h).symm⟩
  · cases h

theorem completeInit_some {t : State} (h : completeInit s = some t) :
    ∃ m r, crMode s.cr = some m ∧ crypen s.cr = true ∧ r = coreInit m s.cr s.key s.iv
      ∧ t = notifyCheck s ({ s with iv := r.iv, csw := r.csw, csf := r.csf }.endPass .init) := by
  unfold completeInit at h
  split at h
  · cases h
  · next m hm =>
    split at h
    · next hc => exact ⟨m, _, hm, hc, rfl, (Option.some.inj h).symm⟩
    · cases h

theorem completeTag_some {t : State} (h : completeTag s = some t) :
    ∃ m r, crMode s.cr = some m ∧ crypen s.cr = true ∧ s.outQ.length + 4 ≤ s.params.outDepth
      ∧ r = coreTag m s.cr s.key s.iv s.csw s.csf (s.inflight.map (swapWord (crWidth s.cr)))
      ∧ t = notifyCheck s ({ s with
          outQ := s.outQ ++ r.out.toList.map (swapWord (crWidth s.cr)), iv := r.iv, csw := r.csw, csf := r.csf
          finalDone := true }.endPass .tag) := by
  unfold completeTag at h
  split at h
  · cases h
  · next m hm =>
    split at h
    · next hc =>
      simp only [Bool.and_eq_true, decide_eq_true_eq] at hc
      exact ⟨m, _, hm, hc.1, hc.2, rfl, (Option.some.inj h).symm⟩
    · cases h

/-- No engine step is enabled while CRYPEN is 0 (R37, R270). -/
theorem engineStep_disabled (h : crypen s.cr = false) : engineStep s = none := by
  cases e : engineStep s with
  | none => rfl
  | some t =>
    exfalso
    unfold engineStep at e
    split at e
    · obtain ⟨_, _, _, _, hc, _⟩ := startBlock_some s e; simp_all
    · obtain ⟨_, _, _, hc, _⟩ := completeData_some s e; simp_all
    · have := (completeKeyPrep_some s e).1; simp_all
    · obtain ⟨_, _, _, hc, _⟩ := completeInit_some s e; simp_all
    · obtain ⟨_, _, _, hc, _⟩ := completeTag_some s e; simp_all

/-- Every data shape takes at least one word (R271). -/
theorem shape_pos {p : Config.Params} {cr : Word} {fd : Bool} {kind : PassKind} {bi bo : Nat}
    (h : shape p cr fd = some (kind, bi, bo)) : (bi = 2 ∨ bi = 4) ∧ bo ≤ 4 := by
  unfold shape shape.aeadShape at h
  repeat' split at h
  all_goals (try simp at h)
  all_goals (obtain ⟨_, rfl, rfl⟩ := h; omega)

/-- No engine step is enabled while the block is drained (R14, R272). -/
theorem engineStep_drained (hd : s.drained = true) (hb : s.busy = s.pass.isSome) : engineStep s = none := by
  simp only [State.drained, Bool.and_eq_true, Bool.not_eq_true', beq_iff_eq] at hd
  have hp : s.pass = none := by
    have : s.pass.isSome = false := by rw [← hb]; exact hd.2
    simpa using this
  cases e : engineStep s with
  | none => rfl
  | some t =>
    exfalso
    unfold engineStep at e
    rw [hp] at e
    obtain ⟨_, bi, _, hs, _, _, hl, _⟩ := startBlock_some s e
    have := (shape_pos hs).1
    omega

/-! ### The DMA steps -/

theorem dmaInStep_some {t : State} (h : dmaInStep s = some t) :
    ∃ w, s.src = w :: t.src ∧ dien s.dmacr = true ∧ s.inQ.length < s.params.inDepth
      ∧ t = { s with inQ := s.inQ ++ [w], src := t.src
                     events := s.events ++ notifications s { s with inQ := s.inQ ++ [w] } ++ [.dmaIn w] } := by
  unfold dmaInStep at h
  split at h
  · cases h
  · next w rest hsrc =>
    split at h
    · next hr =>
      simp only [State.dmaInRequest, State.ifnf, Bool.and_eq_true, decide_eq_true_eq] at hr
      have hne : s.inQ.length ≠ s.params.inDepth := by omega
      have ht : transaction 4 (rowWDin w) s = (notifyCheck s { s with inQ := s.inQ ++ [w] }, none) :=
        transaction_done s (by simp [rowWDin, hne])
      rw [ht, notifyCheck_eq] at h
      cases h
      exact ⟨w, hsrc, hr.1, hr.2, rfl⟩
    · cases h

theorem dmaOutStep_some {t : State} (h : dmaOutStep s = some t) :
    ∃ w, s.outQ = w :: t.outQ ∧ doen s.dmacr = true
      ∧ t = { s with outQ := t.outQ, snk := s.snk ++ [w]
                     events := s.events ++ notifications s { s with outQ := t.outQ } ++ [.dmaOut w] } := by
  unfold dmaOutStep at h
  split at h
  · next hr =>
    simp only [State.dmaOutRequest, State.ofne, Bool.and_eq_true, decide_eq_true_eq] at hr
    cases ho : s.outQ with
    | nil => simp [ho] at hr
    | cons w rest =>
      have ht : transaction 4 rowRDout s = (notifyCheck s { s with outQ := rest }, some w) :=
        transaction_done s (by simp [rowRDout, ho])
      rw [ht, notifyCheck_eq] at h
      cases h
      exact ⟨w, rfl, hr.1, rfl⟩
  · cases h

/-! ### The schedule is read by no agent -/

@[simp] theorem notifications_sched (before after : State) (l l' : List Turn) :
    notifications { before with sched := l } { after with sched := l' } = notifications before after := rfl

theorem settled_sched (l : List Turn) : ({ s with sched := l } : State).settled ↔ s.settled := by
  have he : engineStep { s with sched := l } = none ↔ engineStep s = none := by
    unfold engineStep startBlock completeData completeKeyPrep completeInit completeTag
    show (match s.pass with | none => _ | some (.data bo) => _ | some .keyPrep => _ | some .init => _ | some .tag => _) = none ↔ _
    cases s.pass with
    | none =>
      show (match shape s.params s.cr s.finalDone with | none => none | some (kind, bi, bo) => _) = none ↔ _
      cases shape s.params s.cr s.finalDone with
      | none => simp
      | some k => simp [keyMissing]; split <;> simp
    | some p => cases p <;> simp <;> cases crMode s.cr <;> simp
  have hi : dmaInStep { s with sched := l } = none ↔ dmaInStep s = none := by
    unfold dmaInStep
    show (match s.src with | [] => none | w :: rest => _) = none ↔ _
    cases s.src <;> simp [State.dmaInRequest, State.ifnf]
  have ho : dmaOutStep { s with sched := l } = none ↔ dmaOutStep s = none := by
    unfold dmaOutStep transaction rowRDout
    cases h : s.outQ <;> simp [State.dmaOutRequest, State.ofne, h]
  unfold State.settled
  rw [he, hi, ho]

/-- While Quiet holds the engine has no step (R341). -/
theorem engineStep_quiet (hq : s.quietNow = true) (hb : s.busy = s.pass.isSome) : engineStep s = none := by
  simp only [State.quietNow, quiet, drainedSr_srWord, Bool.or_eq_true, Bool.not_eq_true', Bool.and_eq_true] at hq
  rcases hq with h | ⟨h, _⟩
  · exact engineStep_disabled s h
  · exact engineStep_drained s h hb

/-! One equation for each step: it answers under another schedule as it does, with that schedule kept. -/

theorem startBlock_sched (l : List Turn) :
    startBlock { s with sched := l } = (startBlock s).map fun t => { t with sched := l } := by
  unfold startBlock
  dsimp only
  split
  · rfl
  · rw [apply_ite (Option.map _)]
    refine ite_congr rfl (fun _ => ?_) fun _ => rfl
    rw [apply_ite (Option.map _)]
    exact ite_congr rfl (fun _ => rfl) fun _ => by rw [notifyCheck_eq, notifyCheck_eq]; rfl

theorem completeData_sched (bo : Nat) (l : List Turn) :
    completeData bo { s with sched := l } = (completeData bo s).map fun t => { t with sched := l } := by
  unfold completeData
  dsimp only
  split
  · rfl
  · rw [apply_ite (Option.map _)]
    exact ite_congr rfl (fun _ => by rw [notifyCheck_eq, notifyCheck_eq]; rfl) fun _ => rfl

theorem completeKeyPrep_sched (l : List Turn) :
    completeKeyPrep { s with sched := l } = (completeKeyPrep s).map fun t => { t with sched := l } := by
  unfold completeKeyPrep
  rw [apply_ite (Option.map _)]
  exact ite_congr rfl (fun _ => by rw [notifyCheck_eq, notifyCheck_eq]; rfl) fun _ => rfl

theorem completeInit_sched (l : List Turn) :
    completeInit { s with sched := l } = (completeInit s).map fun t => { t with sched := l } := by
  unfold completeInit
  dsimp only
  split
  · rfl
  · rw [apply_ite (Option.map _)]
    exact ite_congr rfl (fun _ => by rw [notifyCheck_eq, notifyCheck_eq]; rfl) fun _ => rfl

theorem completeTag_sched (l : List Turn) :
    completeTag { s with sched := l } = (completeTag s).map fun t => { t with sched := l } := by
  unfold completeTag
  dsimp only
  split
  · rfl
  · rw [apply_ite (Option.map _)]
    exact ite_congr rfl (fun _ => by rw [notifyCheck_eq, notifyCheck_eq]; rfl) fun _ => rfl

theorem engineStep_sched (l : List Turn) :
    engineStep { s with sched := l } = (engineStep s).map fun t => { t with sched := l } := by
  unfold engineStep
  simp only [startBlock_sched, completeData_sched, completeKeyPrep_sched, completeInit_sched, completeTag_sched]
  split <;> rfl

theorem transaction_wDin_sched (w : Word) (l : List Turn) :
    transaction 4 (rowWDin w) { s with sched := l }
      = ({ (transaction 4 (rowWDin w) s).1 with sched := l }, (transaction 4 (rowWDin w) s).2) := by
  by_cases h : s.inQ.length = s.params.inDepth
  · simp [transaction, rowWDin, h, State.raiseFault]
  · simp only [transaction, rowWDin, h, notifyCheck_eq]
    rfl

theorem dmaInStep_sched (l : List Turn) :
    dmaInStep { s with sched := l } = (dmaInStep s).map fun t => { t with sched := l } := by
  unfold dmaInStep
  simp only [transaction_wDin_sched]
  split
  · rfl
  · rw [apply_ite (Option.map _)]
    exact ite_congr rfl (fun _ => rfl) fun _ => rfl

theorem dmaOutStep_sched (l : List Turn) :
    dmaOutStep { s with sched := l } = (dmaOutStep s).map fun t => { t with sched := l } := by
  unfold dmaOutStep transaction rowRDout
  rw [apply_ite (Option.map _)]
  refine ite_congr rfl (fun _ => ?_) fun _ => rfl
  cases h : s.outQ with
  | nil => simp [h, State.raiseFault]
  | cons w q =>
    simp only [notifyCheck_eq, State.emit]
    rw [← h]
    rfl

/-- What an agent's turn does is the same under every schedule. -/
theorem agentStep_sched (a : Turn) (l : List Turn) :
    agentStep a { s with sched := l } = { agentStep a s with sched := l } := by
  cases a with
  | host => rfl
  | engine => simp only [agentStep, engineStep_sched]; cases engineStep s <;> rfl
  | dmaIn => simp only [agentStep, dmaInStep_sched]; cases dmaInStep s <;> rfl
  | dmaOut => simp only [agentStep, dmaOutStep_sched]; cases dmaOutStep s <;> rfl

/-- So is what a list of turns does. -/
theorem foldl_agentStep_sched (ts : List Turn) (l : List Turn) :
    ts.foldl (fun v a => agentStep a v) { s with sched := l }
      = { ts.foldl (fun v a => agentStep a v) s with sched := l } := by
  induction ts generalizing s with
  | nil => rfl
  | cons a ts ih => rw [List.foldl_cons, List.foldl_cons, agentStep_sched, ih]

/-! ### DmaMoves and AgentMoves -/

theorem DmaMoves.refl (l : List Turn) : DmaMoves s { s with sched := l } where
  rest := rfl
  input := ⟨[], rfl, by simp⟩
  output := ⟨[], rfl, by simp⟩
  input_detached _ := rfl
  output_detached _ := rfl
  events := ⟨[], by simp, rfl⟩
  detached _ _ := rfl

theorem DmaMoves.trans {s u t : State} (h : DmaMoves s u) (k : DmaMoves u t) : DmaMoves s t := by
  have hr := h.rest
  have hd : u.dmacr = s.dmacr := by rw [hr]
  refine ⟨?_, ?_, ?_, ?_, ?_, ?_, ?_⟩
  · have kr := k.rest
    rw [hr] at kr
    exact kr
  · obtain ⟨a, ha, ha'⟩ := h.input
    obtain ⟨b, hb, hb'⟩ := k.input
    exact ⟨a ++ b, by rw [ha, hb, List.append_assoc], by rw [hb', ha', List.append_assoc]⟩
  · obtain ⟨a, ha, ha'⟩ := h.output
    obtain ⟨b, hb, hb'⟩ := k.output
    exact ⟨a ++ b, by rw [ha, hb, List.append_assoc], by rw [hb', ha', List.append_assoc]⟩
  · intro e; rw [k.input_detached (by rw [hd]; exact e), h.input_detached e]
  · intro e; rw [k.output_detached (by rw [hd]; exact e), h.output_detached e]
  · obtain ⟨a, ha, ha'⟩ := h.events
    obtain ⟨b, hb, hb'⟩ := k.events
    exact ⟨a ++ b, by rw [hb, ha, List.append_assoc], by simp [ha', hb']⟩
  · intro e f
    have k' := k.detached (by rw [hd]; exact e) (by rw [hd]; exact f)
    rw [h.detached e f] at k'
    exact k'

theorem dmaIn_moves {t : State} (h : dmaInStep s = some t) : DmaMoves s t := by
  obtain ⟨w, hsrc, hd, _, ht⟩ := dmaInStep_some s h
  generalize t.src = r at hsrc ht
  subst ht
  exact ⟨rfl, ⟨[w], hsrc, rfl⟩, ⟨[], rfl, by simp⟩, fun e => by simp_all, fun _ => rfl,
    ⟨_, List.append_assoc .., by simp [notifications_fromAgent, Event.fromAgent]⟩, fun e => by simp_all⟩

theorem dmaOut_moves {t : State} (h : dmaOutStep s = some t) : DmaMoves s t := by
  obtain ⟨w, ho, hd, ht⟩ := dmaOutStep_some s h
  generalize t.outQ = r at ho ht
  subst ht
  exact ⟨rfl, ⟨[], rfl, by simp⟩, ⟨[w], ho, rfl⟩, fun _ => rfl, fun e => by simp_all,
    ⟨_, List.append_assoc .., by simp [notifications_fromAgent, Event.fromAgent]⟩, fun _ e => by simp_all⟩

/-- DMA keeps Quiet and does not touch the pass (R341). -/
theorem DmaMoves.quietNow {s t : State} (h : DmaMoves s t) (hq : s.quietNow = true) : t.quietNow = true := by
  have hr := h.rest
  have hcr : t.cr = s.cr := by rw [hr]
  have hdm : t.dmacr = s.dmacr := by rw [hr]
  have hb : t.busy = s.busy := by rw [hr]
  simp only [State.quietNow, quiet, drainedSr_srWord, State.drained, Bool.or_eq_true, Bool.not_eq_true', Bool.and_eq_true,
    beq_iff_eq, hcr, hdm, hb] at hq ⊢
  rcases hq with h' | ⟨⟨⟨h1, h2⟩, h3⟩, h4⟩
  · exact .inl h'
  · obtain ⟨ws, ha, hb'⟩ := h.input
    obtain ⟨vs, hc, _⟩ := h.output
    have hi := h.input_detached h4
    rw [hi] at ha
    have : ws = [] := by simpa using ha
    subst this
    have hl : t.outQ.length = 0 := by
      have := congrArg List.length hc
      simp only [List.length_append] at this
      omega
    exact .inr ⟨⟨⟨by rw [hb']; simpa using h1, hl⟩, h3⟩, h4⟩

theorem AgentMoves.refl (l : List Turn) : AgentMoves s { s with sched := l } where
  host := rfl
  faults := .inl rfl
  events := ⟨[], by simp, rfl⟩
  quiet _ := DmaMoves.refl s l
  settled _ := rfl
  steps := ⟨[], by simp, rfl⟩

theorem insertFault_idem (k : FaultKind) (l : List FaultKind) : insertFault k (insertFault k l) = insertFault k l := by
  induction l with
  | nil => simp [insertFault]
  | cons a l ih =>
    by_cases h : k = a
    · subst h; simp [insertFault]
    · by_cases h' : k.code < a.code
      · simp [insertFault, h, h']
      · simp [insertFault, h, h', ih]

theorem AgentMoves.trans {s u t : State} (h : AgentMoves s u) (k : AgentMoves u t) : AgentMoves s t := by
  refine ⟨?_, ?_, ?_, ?_, ?_, ?_⟩
  · have kh := k.host
    rw [h.host] at kh
    exact kh
  · rcases h.faults with a | a <;> rcases k.faults with b | b <;> rw [a] at b
    · exact .inl b
    · exact .inr b
    · exact .inr b
    · exact .inr (by rw [b, insertFault_idem])
  · obtain ⟨a, ha, ha'⟩ := h.events
    obtain ⟨b, hb, hb'⟩ := k.events
    exact ⟨a ++ b, by rw [hb, ha, List.append_assoc], by simp [ha', hb']⟩
  · intro hq
    exact (h.quiet hq).trans (k.quiet ((h.quiet hq).quietNow hq))
  · intro hs
    have hu := h.settled hs
    have hs' : u.settled := by rw [hu]; exact (settled_sched s _).2 hs
    have ht := k.settled hs'
    rw [hu] at ht
    exact ht
  · obtain ⟨a, ha, ha'⟩ := h.steps
    obtain ⟨b, hb, hb'⟩ := k.steps
    refine ⟨a ++ b, fun c hc => (List.mem_append.1 hc).elim (ha c) (hb c), ?_⟩
    rw [ha', foldl_agentStep_sched] at hb'
    rw [List.foldl_append]
    exact hb'

/-- One turn is a list of turns. -/
theorem agentStep_steps {s t : State} {a : Turn} (ha : a ≠ .host) (h : agentStep a s = t) :
    ∃ ts : List Turn, (∀ b ∈ ts, b ≠ .host) ∧ t = { ts.foldl (fun v b => agentStep b v) s with sched := t.sched } :=
  ⟨[a], by simpa using ha, by rw [← h]; rfl⟩

/-- A step of the engine moves as an agent may. -/
theorem engineStep_moves (hb : s.busy = s.pass.isSome) {t : State} (h : engineStep s = some t) : AgentMoves s t := by
  have hq : s.quietNow ≠ true := fun e => by rw [engineStep_quiet s e hb] at h; cases h
  have hs : ¬ s.settled := fun e => by rw [e.1] at h; cases h
  suffices hh : t = { s with
        iv := t.iv, csw := t.csw, csf := t.csf, inQ := t.inQ, outQ := t.outQ, busy := t.busy, pass := t.pass
        inflight := t.inflight, decKeyReady := t.decKeyReady, finalDone := t.finalDone, faults := t.faults
        events := t.events, src := t.src, snk := t.snk, sched := t.sched }
      ∧ (t.faults = s.faults ∨ t.faults = insertFault .keyNotPrepared s.faults)
      ∧ ∃ es, t.events = s.events ++ es ∧ es.all Event.fromAgent = true by
    exact ⟨hh.1, hh.2.1, hh.2.2, fun e => absurd e hq, fun e => absurd e hs,
      agentStep_steps (a := .engine) (by simp) (by simp [agentStep, h])⟩
  unfold engineStep at h
  split at h
  · obtain ⟨_, _, _, _, _, _, _, _, ⟨_, rfl⟩ | ⟨_, rfl⟩⟩ := startBlock_some s h
    · exact ⟨rfl, .inr rfl, [], by simp, rfl⟩
    · rw [notifyCheck_eq]
      exact ⟨rfl, .inl rfl, _, List.append_assoc .., by simp [notifications_fromAgent, Event.fromAgent]⟩
  · obtain ⟨_, _, _, _, _, rfl⟩ := completeData_some s h
    rw [notifyCheck_eq]
    exact ⟨rfl, .inl rfl, _, List.append_assoc .., by simp [notifications_fromAgent, Event.fromAgent]⟩
  · obtain ⟨_, rfl⟩ := completeKeyPrep_some s h
    rw [notifyCheck_eq]
    exact ⟨rfl, .inl rfl, _, List.append_assoc .., by simp [notifications_fromAgent, Event.fromAgent]⟩
  · obtain ⟨_, _, _, _, _, rfl⟩ := completeInit_some s h
    rw [notifyCheck_eq]
    exact ⟨rfl, .inl rfl, _, List.append_assoc .., by simp [notifications_fromAgent, Event.fromAgent]⟩
  · obtain ⟨_, _, _, _, _, _, rfl⟩ := completeTag_some s h
    rw [notifyCheck_eq]
    exact ⟨rfl, .inl rfl, _, List.append_assoc .., by simp [notifications_fromAgent, Event.fromAgent]⟩

theorem DmaMoves.agentMoves {s t : State} {a : Turn} (h : DmaMoves s t) (hs : s.settled → t = { s with sched := t.sched })
    (ha : a ≠ .host) (ht : agentStep a s = t) : AgentMoves s t where
  host := by
    have e := h.rest
    generalize t.inQ = a, t.outQ = b, t.src = c, t.snk = d, t.events = f, t.sched = g at e
    subst e
    rfl
  faults := .inl (by rw [h.rest])
  events := h.events
  quiet _ := h
  settled := hs
  steps := agentStep_steps ha ht

/-- Every turn of the schedule moves as an agent may. -/
theorem agentStep_moves (hb : s.busy = s.pass.isSome) (a : Turn) : AgentMoves s (agentStep a s) := by
  cases a with
  | host => exact AgentMoves.refl s s.sched
  | engine =>
    unfold agentStep
    cases h : engineStep s with
    | none => exact AgentMoves.refl s s.sched
    | some t => exact engineStep_moves s hb h
  | dmaIn =>
    unfold agentStep
    cases h : dmaInStep s with
    | none => exact AgentMoves.refl s s.sched
    | some t =>
      exact (dmaIn_moves s h).agentMoves (a := .dmaIn) (fun e => by rw [e.2.1] at h; cases h) nofun (by simp [agentStep, h])
  | dmaOut =>
    unfold agentStep
    cases h : dmaOutStep s with
    | none => exact AgentMoves.refl s s.sched
    | some t =>
      exact (dmaOut_moves s h).agentMoves (a := .dmaOut) (fun e => by rw [e.2.2] at h; cases h) nofun (by simp [agentStep, h])

/-- `busy = 1 ⇔ pass ≠ None` outlives every agent's step (R61). -/
theorem agentStep_busy_iff (hb : s.busy = s.pass.isSome) (a : Turn) :
    (agentStep a s).busy = (agentStep a s).pass.isSome := by
  cases a with
  | host => exact hb
  | engine =>
    unfold agentStep
    cases h : engineStep s with
    | none => exact hb
    | some t =>
      unfold engineStep at h
      split at h
      · obtain ⟨_, _, _, _, _, _, _, _, ⟨_, rfl⟩ | ⟨_, rfl⟩⟩ := startBlock_some s h <;> simp [hb]
      · obtain ⟨_, _, _, _, _, rfl⟩ := completeData_some s h; simp
      · obtain ⟨_, rfl⟩ := completeKeyPrep_some s h; simp
      · obtain ⟨_, _, _, _, _, rfl⟩ := completeInit_some s h; simp
      · obtain ⟨_, _, _, _, _, _, rfl⟩ := completeTag_some s h; simp
  | dmaIn =>
    unfold agentStep
    cases h : dmaInStep s with
    | none => exact hb
    | some t => obtain ⟨_, _, _, _, ht⟩ := dmaInStep_some s h; rw [ht]; exact hb
  | dmaOut =>
    unfold agentStep
    cases h : dmaOutStep s with
    | none => exact hb
    | some t => obtain ⟨_, _, _, ht⟩ := dmaOutStep_some s h; rw [ht]; exact hb

/-! ### The gap between two host steps of one operation -/

theorem runTurns_induct {P : State → Prop} (hs : ∀ u l, P u → P { u with sched := l })
    (ha : ∀ u a, P u → P (agentStep a u)) : ∀ (l : List Turn) (u : State), P u → P (runTurns l u) := by
  intro l
  induction l with
  | nil => intro u h; exact hs u _ h
  | cons a l ih =>
    intro u h
    cases a with
    | host => exact hs u _ h
    | engine => exact ih _ (ha _ _ h)
    | dmaIn => exact ih _ (ha _ _ h)
    | dmaOut => exact ih _ (ha _ _ h)

/-- Whatever every agent's step keeps, a gap keeps. -/
theorem gap_induct {P : State → Prop} (hs : ∀ u l, P u → P { u with sched := l })
    (ha : ∀ u a, P u → P (agentStep a u)) (h : P s) : P s.gap := runTurns_induct hs ha s.sched s h

theorem gap_busy_iff (hb : s.busy = s.pass.isSome) : s.gap.busy = s.gap.pass.isSome :=
  gap_induct s (P := fun u => u.busy = u.pass.isSome) (fun _ _ h => h) (fun u a h => agentStep_busy_iff u h a) hb

/-- Everything a gap can do. -/
theorem gap_moves (hb : s.busy = s.pass.isSome) : AgentMoves s s.gap := by
  have := gap_induct s (P := fun u => u.busy = u.pass.isSome ∧ AgentMoves s u)
    (fun u l h => ⟨h.1, h.2.trans (AgentMoves.refl u l)⟩)
    (fun u a h => ⟨agentStep_busy_iff u h.1 a, h.2.trans (agentStep_moves u h.1 a)⟩)
    ⟨hb, AgentMoves.refl s s.sched⟩
  exact this.2

/-- While Quiet holds, a gap is DMA moves. -/
theorem gap_dma (hb : s.busy = s.pass.isSome) (hq : s.quietNow = true) : DmaMoves s s.gap := (gap_moves s hb).quiet hq

end Sys2Proof.Machine
end

