-- ==== Sys2Proof/Laws/ControlWrite.lean ====
section
/-! SUPPORT. What a CR write can do, said once for each case: the zero-input pass it can start (R278), the pass it can abort
(R277), and what it stores (R201). -/

namespace Sys2Proof.Machine

variable (s : State)

/-- A busy engine starts no zero-input pass. -/
theorem startZeroInputPass_busy (old new : Word) (h : s.busy = true) : startZeroInputPass old new s = s := by
  unfold startZeroInputPass
  rw [if_pos h]

/-- With CRYPEN written 0 no zero-input pass starts. -/
theorem startZeroInputPass_disabled (old new : Word) (h : crypen new = false) : startZeroInputPass old new s = s := by
  unfold startZeroInputPass keyPrepCondition initCondition tagCondition
  simp [h]

/-- No condition goes from false to true: no zero-input pass starts. -/
theorem startZeroInputPass_same (c : Word) : startZeroInputPass c c s = s := by
  unfold startZeroInputPass
  simp

/-- Everything the end of a CR write can start, with no pass in flight. -/
theorem startZeroInputPass_cases (old new : Word) (h : s.busy = false) :
    ((keyPrepCondition new = true ∧ keyPrepCondition old = false)
      ∧ startZeroInputPass old new s = { s with decKeyReady := false }.startPass .keyPrep .keyPrep [])
    ∨ (¬(keyPrepCondition new = true ∧ keyPrepCondition old = false)
      ∧ (initCondition new = true ∧ initCondition old = false)
      ∧ startZeroInputPass old new s = s.startPass .init .init [])
    ∨ (¬(keyPrepCondition new = true ∧ keyPrepCondition old = false)
      ∧ ¬(initCondition new = true ∧ initCondition old = false)
      ∧ (tagCondition s.params new = true ∧ tagCondition s.params old = false ∧ s.finalDone = false)
      ∧ startZeroInputPass old new s = s.startPass .tag .tag [])
    ∨ (¬(keyPrepCondition new = true ∧ keyPrepCondition old = false)
      ∧ ¬(initCondition new = true ∧ initCondition old = false)
      ∧ ¬(tagCondition s.params new = true ∧ tagCondition s.params old = false ∧ s.finalDone = false)
      ∧ startZeroInputPass old new s = s) := by
  unfold startZeroInputPass
  rw [if_neg (by rw [h]; simp)]
  by_cases h1 : keyPrepCondition new = true ∧ keyPrepCondition old = false
  · exact .inl ⟨h1, by rw [if_pos (by simp [h1.1, h1.2])]⟩
  · rw [if_neg (by simpa using h1)]
    by_cases h2 : initCondition new = true ∧ initCondition old = false
    · exact .inr (.inl ⟨h1, h2, by rw [if_pos (by simp [h2.1, h2.2])]⟩)
    · rw [if_neg (by simpa using h2)]
      by_cases h3 : tagCondition s.params new = true ∧ tagCondition s.params old = false ∧ s.finalDone = false
      · exact .inr (.inr (.inl ⟨h1, h2, h3, by rw [if_pos (by simp [h3.1, h3.2.1, h3.2.2])]⟩))
      · exact .inr (.inr (.inr ⟨h1, h2, h3, by rw [if_neg (by simpa [and_assoc] using h3)]⟩))

/-- AbortPass, by the pass in flight (R277). -/
theorem abortPass_keyPrep (h : s.pass = some .keyPrep) : abortPass s =
    { s with decKeyReady := false, inflight := [], busy := false, pass := none, events := s.events ++ [.abort .keyPrep] } := by
  unfold abortPass
  rw [h]
  rfl

theorem abortPass_other {p : Pass} (h : s.pass = some p) (hp : p ≠ .keyPrep) : abortPass s =
    { s with
      iv := draws4 s.draws, csw := draws8 (s.draws + 4), csf := draws8 (s.draws + 12), draws := s.draws + 20
      inflight := [], busy := false, pass := none, events := s.events ++ [.abort p] } := by
  unfold abortPass
  rw [h]
  cases p <;> first | rfl | exact absurd rfl hp

/-- A CR write with no pass in flight stores, flushes, clears, and may start a zero-input pass. -/
theorem crApply_idle (v : Word) (h : s.busy = false) : crApply v s =
    startZeroInputPass s.cr (crStored v) { s with
      cr := crStored v
      inQ := if v.getLsbD 14 then [] else s.inQ
      outQ := if v.getLsbD 14 then [] else s.outQ
      decKeyReady := if ksField s.cr = ksField (crStored v) then s.decKeyReady else false
      finalDone := if phaseField s.cr = phaseField (crStored v) then s.finalDone else false } := by
  have hn : ¬((crypen s.cr && !crypen (crStored v) && s.busy) = true) := by rw [h]; simp
  unfold crApply
  dsimp only
  rw [if_neg hn]
  congr 1
  cases v.getLsbD 14 <;> by_cases h1 : ksField s.cr = ksField (crStored v) <;>
    by_cases h2 : phaseField s.cr = phaseField (crStored v) <;> simp [h1, h2]

/-- A CR write that clears CRYPEN while a pass is in flight, and changes nothing else, aborts it. -/
theorem crApply_abort (v : Word) (hb : s.busy = true) (ho : crypen s.cr = true) (hn : crypen (crStored v) = false)
    (hf : v.getLsbD 14 = false) (hk : ksField s.cr = ksField (crStored v)) (hp : phaseField s.cr = phaseField (crStored v)) :
    crApply v s = { abortPass s with cr := crStored v } := by
  have hc : (crypen s.cr && !crypen (crStored v) && s.busy) = true := by rw [hb, ho, hn]; rfl
  unfold crApply
  dsimp only
  rw [if_pos hc, startZeroInputPass_disabled _ _ _ hn, hf]
  simp [hk, hp]

/-- A CR write that changes nothing, by a busy engine: the pass goes on. -/
theorem crApply_running (v : Word) (hb : s.busy = true) (hn : crypen s.cr = false ∨ crypen (crStored v) = true)
    (hf : v.getLsbD 14 = false) : crApply v s =
    { s with
      cr := crStored v
      decKeyReady := if ksField s.cr = ksField (crStored v) then s.decKeyReady else false
      finalDone := if phaseField s.cr = phaseField (crStored v) then s.finalDone else false } := by
  have hna : ¬((crypen s.cr && !crypen (crStored v) && s.busy) = true) := by
    rcases hn with h | h <;> rw [h] <;> simp
  unfold crApply
  dsimp only
  rw [if_neg hna, hf]
  by_cases h1 : ksField s.cr = ksField (crStored v) <;> by_cases h2 : phaseField s.cr = phaseField (crStored v) <;>
    simp [h1, h2, startZeroInputPass_busy, hb]

/-! ### The checks of R201 -/

theorem active_iff : s.active = true ↔ s.activeNow := by
  unfold State.active State.drained crypen
  simp only [State.activeNow, Bool.and_eq_true, Bool.not_eq_true', Bool.and_eq_false_iff, beq_eq_false_iff_ne, ne_eq,
    List.length_eq_zero_iff, not_and]
  constructor
  · rintro ⟨h, h'⟩
    refine ⟨h, fun a b => ?_⟩
    rcases h' with (h' | h') | h'
    · exact absurd a h'
    · exact absurd b h'
    · simpa using h'
  · rintro ⟨h, h'⟩
    refine ⟨h, ?_⟩
    by_cases a : s.inQ = []
    · by_cases b : s.outQ = []
      · exact .inr (by simpa using h' a b)
      · exact .inl (.inr b)
    · exact .inl (.inl a)

/-- The reserved configurations of R148 (a), by their codes. -/
theorem reservedCr_iff (w : Word) : reservedCr w ↔ reservedConfig w = true := by
  unfold reservedCr reservedConfig crMode modeField ksField
  generalize w.extractLsb' 19 1 ++ w.extractLsb' 3 3 = m
  generalize w.extractLsb' 8 2 = k
  revert m k
  decide

theorem crStored_eq (v : Word) : crStored v = v &&& 0x000B83FC := by
  unfold crStored crWmask fflushMask
  rw [BitVec.and_assoc]
  rfl

theorem crStored_cfg (v : Word) : crStored v &&& cfgMask = v &&& 0x000803FC := by
  rw [crStored_eq, BitVec.and_assoc]
  rfl

theorem crStored_phase (v : Word) : crStored v &&& phMask = v &&& 0x00030000 := by
  rw [crStored_eq, BitVec.and_assoc]
  rfl

/-- A CR write passes every check exactly when R201 says so. -/
theorem crFault_none_iff (v : Word) : crFault v s = none ↔ crWriteLegal v s := by
  have hr := reservedCr_iff (crStored v)
  rw [crStored_eq] at hr
  have ha := active_iff s
  unfold crFault crWriteLegal
  rw [crStored_cfg, crStored_phase, crStored_eq]
  by_cases h1 : reservedConfig (v &&& 0x000B83FC) = true
  · rw [if_pos h1]
    exact ⟨fun e => (by cases e), fun e => absurd (hr.2 h1) e.1⟩
  · have h1' : ¬reservedCr (v &&& 0x000B83FC) := fun e => h1 (hr.1 e)
    rw [if_neg h1]
    by_cases h2 : s.active = true
    · have h2' := ha.1 h2
      by_cases h3 : s.cr &&& 0x000803FC = v &&& 0x000803FC
      · by_cases h4 : s.cr &&& 0x00030000 = v &&& 0x00030000
        · by_cases h5 : v.getLsbD 14 = true ∧ s.busy = true
          · rw [if_neg (by rw [show cfgMask = 0x000803FC from rfl, h3]; simp),
              if_neg (by rw [show phMask = 0x00030000 from rfl, h4]; simp), if_pos (by rw [h5.1, h5.2]; rfl)]
            exact ⟨fun e => (by cases e), fun e => absurd h5 e.2.2⟩
          · rw [if_neg (by rw [show cfgMask = 0x000803FC from rfl, h3]; simp),
              if_neg (by rw [show phMask = 0x00030000 from rfl, h4]; simp), if_neg (by rw [Bool.and_eq_true]; exact h5)]
            exact ⟨fun _ => ⟨h1', fun _ => ⟨h3, h4⟩, h5⟩, fun _ => rfl⟩
        · rw [if_neg (by rw [show cfgMask = 0x000803FC from rfl, h3]; simp),
            if_pos (by rw [h2, show phMask = 0x00030000 from rfl, Bool.true_and, bne_iff_ne]; exact h4)]
          exact ⟨fun e => (by cases e), fun e => absurd (e.2.1 h2').2 h4⟩
      · rw [if_pos (by rw [h2, show cfgMask = 0x000803FC from rfl, Bool.true_and, bne_iff_ne]; exact h3)]
        exact ⟨fun e => (by cases e), fun e => absurd (e.2.1 h2').1 h3⟩
    · have h2' : ¬s.activeNow := fun e => h2 (ha.2 e)
      have h2'' : s.active = false := by simpa using h2
      rw [h2'', Bool.false_and, Bool.false_and, if_neg (by simp), if_neg (by simp)]
      by_cases h5 : v.getLsbD 14 = true ∧ s.busy = true
      · rw [if_pos (by rw [h5.1, h5.2]; rfl)]
        exact ⟨fun e => (by cases e), fun e => absurd h5 e.2.2⟩
      · rw [if_neg (by rw [Bool.and_eq_true]; exact h5)]
        exact ⟨fun _ => ⟨h1', fun e => absurd e h2', h5⟩, fun _ => rfl⟩

/-- A host's CR write that passes every check. -/
theorem exec_wCr_legal {v : Word} (h : crWriteLegal v s) : exec (.wCr 4 v) s = .next (notifyCheck s (crApply v s)) := by
  have hf := (crFault_none_iff s v).2 h
  have : rowWCr v s = .done (crApply v s) none := by unfold rowWCr; rw [hf]
  exact congrArg Host.Outcome.next (hostTransaction_write s this)

/-- The controller's CR write that passes every check. -/
theorem wr_wCr_legal {v : Word} (h : crWriteLegal v s) : s.wr (rowWCr v) = notifyCheck s (crApply v s) := by
  rw [wr_wCr, (crFault_none_iff s v).2 h]

end Sys2Proof.Machine
end

