-- ==== Sys2Proof/Laws/Keeps.lean ====
section
/-! SUPPORT. What every meaning keeps, said once: a property that each host transaction, each agent's step and each
controller-local update keeps is kept by every operation, by every instruction and by every step. -/

namespace Sys2Proof.Machine

variable (s : State)

/-- The register rows of spec/40_register_access.md. -/
inductive IsRow : Row → Prop where
  | rCr : IsRow rowRCr
  | wCr (v : Word) : IsRow (rowWCr v)
  | rSr : IsRow rowRSr
  | wSr (v : Word) : IsRow (rowWSr v)
  | rDin : IsRow rowRDin
  | wDin (w : Word) : IsRow (rowWDin w)
  | rDout : IsRow rowRDout
  | wDout (v : Word) : IsRow (rowWDout v)
  | rDmacr : IsRow rowRDmacr
  | wDmacr (v : Word) : IsRow (rowWDmacr v)
  | rImscr : IsRow rowRImscr
  | wImscr (v : Word) : IsRow (rowWImscr v)
  | rRisr : IsRow rowRRisr
  | wRisr (v : Word) : IsRow (rowWRisr v)
  | rMisr : IsRow rowRMisr
  | wMisr (v : Word) : IsRow (rowWMisr v)
  | rKey (k : Fin 8) : IsRow (rowRKey k)
  | wKey (k : Fin 8) (v : Word) : IsRow (rowWKey k v)
  | rIv (v : Fin 4) : IsRow (rowRIv v)
  | wIv (v : Fin 4) (x : Word) : IsRow (rowWIv v x)
  | rCsw (x : Fin 8) : IsRow (rowRCsw x)
  | wCsw (x : Fin 8) (y : Word) : IsRow (rowWCsw x y)
  | rCsf (x : Fin 8) : IsRow (rowRCsf x)
  | wCsf (x : Fin 8) (y : Word) : IsRow (rowWCsf x y)
  | busErr : IsRow rowBusErr

/-- What no register row touches: the fault set where it does not raise, the controller, the program, what the host holds
and the DMA streams; and the history only grows. -/
structure RowFrame (u t : State) : Prop where
  params : t.params = u.params
  faults : t.faults = u.faults
  events : ∃ es, t.events = u.events ++ es
  ctl : t.ctl = u.ctl
  src : t.src = u.src
  snk : t.snk = u.snk
  prog : t.prog = u.prog
  reads : t.reads = u.reads
  oks : t.oks = u.oks
  snaps : t.snaps = u.snaps
  sched : t.sched = u.sched

theorem RowFrame.refl : RowFrame s s := ⟨rfl, rfl, ⟨[], by simp⟩, rfl, rfl, rfl, rfl, rfl, rfl, rfl, rfl⟩

theorem abortPass_frame : RowFrame s (abortPass s) := by
  unfold abortPass
  split
  · exact ⟨rfl, rfl, ⟨[], by simp⟩, rfl, rfl, rfl, rfl, rfl, rfl, rfl, rfl⟩
  · exact ⟨rfl, rfl, ⟨_, rfl⟩, rfl, rfl, rfl, rfl, rfl, rfl, rfl, rfl⟩
  · exact ⟨rfl, rfl, ⟨_, rfl⟩, rfl, rfl, rfl, rfl, rfl, rfl, rfl, rfl⟩

theorem startZeroInputPass_frame (old new : Word) : RowFrame s (startZeroInputPass old new s) := by
  unfold startZeroInputPass
  split_ifs
  · exact RowFrame.refl s
  · exact ⟨rfl, rfl, ⟨_, rfl⟩, rfl, rfl, rfl, rfl, rfl, rfl, rfl, rfl⟩
  · exact ⟨rfl, rfl, ⟨_, rfl⟩, rfl, rfl, rfl, rfl, rfl, rfl, rfl, rfl⟩
  · exact ⟨rfl, rfl, ⟨_, rfl⟩, rfl, rfl, rfl, rfl, rfl, rfl, rfl, rfl⟩
  · exact RowFrame.refl s

theorem RowFrame.trans {a b c : State} (h : RowFrame a b) (k : RowFrame b c) : RowFrame a c := by
  obtain ⟨es, he⟩ := h.events
  obtain ⟨es', he'⟩ := k.events
  exact ⟨k.params.trans h.params, k.faults.trans h.faults, ⟨es ++ es', by rw [he', he, List.append_assoc]⟩,
    k.ctl.trans h.ctl, k.src.trans h.src, k.snk.trans h.snk, k.prog.trans h.prog, k.reads.trans h.reads,
    k.oks.trans h.oks, k.snaps.trans h.snaps, k.sched.trans h.sched⟩

theorem crApply_frame (v : Word) : RowFrame s (crApply v s) := by
  have h1 : ∀ b : Bool, RowFrame s (if b then abortPass s else s) := by
    intro b
    split
    · exact abortPass_frame s
    · exact RowFrame.refl s
  unfold crApply
  refine RowFrame.trans (h1 (crypen s.cr && !crypen (crStored v) && s.busy)) (RowFrame.trans ?_ (startZeroInputPass_frame _ _ _))
  dsimp only
  split_ifs <;> exact ⟨rfl, rfl, ⟨[], by simp⟩, rfl, rfl, rfl, rfl, rfl, rfl, rfl, rfl⟩

theorem row_frame {row : Row} (hr : IsRow row) {u t : State} {v : Option Word} (h : row u = .done t v) : RowFrame u t := by
  have simple : ∀ {t : State}, t.params = u.params → t.faults = u.faults → t.events = u.events → t.ctl = u.ctl →
      t.src = u.src → t.snk = u.snk → t.prog = u.prog → t.reads = u.reads → t.oks = u.oks → t.snaps = u.snaps →
      t.sched = u.sched → RowFrame u t := fun a b c d e f g i j k l => ⟨a, b, ⟨[], by simp [c]⟩, d, e, f, g, i, j, k, l⟩
  cases hr
  case wCr w =>
    unfold rowWCr at h
    split at h
    · cases h
    · cases h; exact crApply_frame u w
  case wDin => unfold rowWDin at h; split at h <;> cases h; exact simple rfl rfl rfl rfl rfl rfl rfl rfl rfl rfl rfl
  case rDout => unfold rowRDout at h; split at h <;> cases h; exact simple rfl rfl rfl rfl rfl rfl rfl rfl rfl rfl rfl
  case wKey => unfold rowWKey at h; split at h <;> cases h; exact simple rfl rfl rfl rfl rfl rfl rfl rfl rfl rfl rfl
  case wIv => unfold rowWIv at h; split at h <;> cases h; exact simple rfl rfl rfl rfl rfl rfl rfl rfl rfl rfl rfl
  case wCsw => unfold rowWCsw at h; split at h <;> cases h; exact simple rfl rfl rfl rfl rfl rfl rfl rfl rfl rfl rfl
  case wCsf => unfold rowWCsf at h; split at h <;> cases h; exact simple rfl rfl rfl rfl rfl rfl rfl rfl rfl rfl rfl
  case rIv => unfold rowRIv at h; split at h <;> cases h <;> exact simple rfl rfl rfl rfl rfl rfl rfl rfl rfl rfl rfl
  case rCsw => unfold rowRCsw at h; split at h <;> cases h <;> exact simple rfl rfl rfl rfl rfl rfl rfl rfl rfl rfl rfl
  case rCsf => unfold rowRCsf at h; split at h <;> cases h <;> exact simple rfl rfl rfl rfl rfl rfl rfl rfl rfl rfl rfl
  case busErr => cases h
  all_goals cases h; exact simple rfl rfl rfl rfl rfl rfl rfl rfl rfl rfl rfl

/-- What a transaction does beside its row: one fault recorded and nothing else, or the row's frame and the notifications. -/
theorem transaction_frame {row : Row} (hr : IsRow row) (width : Nat) (u : State) :
    (∃ k, (transaction width row u) = (u.raiseFault k, none))
      ∨ ∃ t v, row u = .done t v ∧ RowFrame u t ∧ (transaction width row u) = (notifyCheck u t, v) := by
  rcases transaction_cases u width row with ⟨k, e, _⟩ | ⟨t, v, _, hd, e⟩
  · exact .inl ⟨k, e⟩
  · exact .inr ⟨t, v, hd, row_frame hr hd, e⟩

/-- A property that every part of every meaning keeps. -/
structure Keeps (P : State → Prop) : Prop where
  sched : ∀ u l, P u → P { u with sched := l }
  agent : ∀ u a, P u → P (agentStep a u)
  row : ∀ u width row, IsRow row → P u → P (transaction width row u).1
  reads : ∀ u l, P u → P { u with reads := l }
  result : ∀ u op r, P u → P (u.finish op r)
  /-- an update of the controller that leaves the snapshot ids alone -/
  ctl : ∀ u f, (∀ c : Controller, (f c).outstanding = c.outstanding ∧ (f c).nextId = c.nextId) → P u → P (u.withCtl f)
  /-- save's update: the next id, and the bits that a CR read returned -/
  capture : ∀ u (snap : ContextSnapshot), P u → snap.id = u.ctl.nextId → (∃ u0, P u0 ∧ snap.cfgBits = u0.cr &&& snapMask) →
    P { u.withCtl ctlAfterSave with snaps := u.snaps ++ [snap] }
  /-- restore's update: one id is outstanding no more -/
  resume : ∀ u id f, (∀ c : Controller, (f c).outstanding = removeId id c.outstanding ∧ (f c).nextId = c.nextId) →
    P u → P (u.withCtl f)

namespace Keeps

variable {P : State → Prop} (K : Keeps P)
include K

theorem gap {u : State} (h : P u) : P u.gap := gap_induct u K.sched K.agent h
theorem rd {u : State} {row : Row} (hr : IsRow row) (h : P u) : P (u.rd row).2 := K.row u 4 row hr h
theorem wr {u : State} {row : Row} (hr : IsRow row) (h : P u) : P (u.wr row) := K.row u 4 row hr h

theorem host {u : State} {width : Nat} {row : Row} (hr : IsRow row) (h : P u) : P (hostTransaction width row u) :=
  K.reads _ _ (K.row u width row hr h)

theorem wrAll {rows : List Row} (hr : ∀ r ∈ rows, IsRow r) {u : State} (h : P u) : P (u.wrAll rows) := by
  induction rows generalizing u with
  | nil => exact h
  | cons r rows ih =>
    exact ih (fun r' h' => hr r' (List.mem_cons_of_mem _ h')) (K.wr (hr r (List.mem_cons_self ..)) (K.gap h))

theorem rdAll {rows : List Row} (hr : ∀ r ∈ rows, IsRow r) {u : State} (h : P u) : P (u.rdAll rows).2 := by
  induction rows generalizing u with
  | nil => exact h
  | cons r rows ih =>
    exact ih (fun r' h' => hr r' (List.mem_cons_of_mem _ h')) (K.rd (hr r (List.mem_cons_self ..)) (K.gap h))

theorem pollSr (m v : Word) (n : Nat) {u : State} (h : P u) : P (Machine.pollSr m v n u).2 := by
  induction n generalizing u with
  | zero => exact h
  | succ n ih =>
    unfold Machine.pollSr
    have := K.rd IsRow.rSr (K.gap h)
    dsimp only
    split
    · exact this
    · exact ih this

end Keeps

theorem keyRows_isRow (ws : List (Fin 8 × Word)) : ∀ r ∈ keyRows ws, IsRow r := by
  intro r h
  obtain ⟨p, _, rfl⟩ := List.mem_map.1 h
  exact .wKey _ _

theorem ivRows_isRow (ws : List (Fin 4 × Word)) : ∀ r ∈ ivRows ws, IsRow r := by
  intro r h
  obtain ⟨p, _, rfl⟩ := List.mem_map.1 h
  exact .wIv _ _

theorem ivReadRows_isRow : ∀ r ∈ ivReadRows, IsRow r := by
  simp only [ivReadRows, List.forall_mem_cons]
  refine ⟨.rIv _, .rIv _, .rIv _, .rIv _, by simp⟩

theorem cswReadRows_isRow : ∀ r ∈ cswReadRows, IsRow r := by
  simp only [cswReadRows, List.forall_mem_cons]
  refine ⟨.rCsw _, .rCsw _, .rCsw _, .rCsw _, .rCsw _, .rCsw _, .rCsw _, .rCsw _, by simp⟩

theorem csfReadRows_isRow : ∀ r ∈ csfReadRows, IsRow r := by
  simp only [csfReadRows, List.forall_mem_cons]
  refine ⟨.rCsf _, .rCsf _, .rCsf _, .rCsf _, .rCsf _, .rCsf _, .rCsf _, .rCsf _, by simp⟩

theorem contextRows_isRow (ctx : Option ContextWords) : ∀ r ∈ contextRows ctx, IsRow r := by
  intro r h
  cases ctx with
  | none => cases h
  | some c =>
    rcases List.mem_append.1 h with h | h
    · obtain ⟨p, _, rfl⟩ := List.mem_map.1 h; exact .wCsw _ _
    · obtain ⟨p, _, rfl⟩ := List.mem_map.1 h; exact .wCsf _ _

theorem restoreRows_isRow (cfg : EngineConfig) (snap : ContextSnapshot) (key : List WordPair) :
    ∀ r ∈ restoreRows cfg snap key, IsRow r := by
  intro r h
  rcases List.mem_append.1 h with h | h
  · rcases List.mem_append.1 h with h | h
    · exact keyRows_isRow _ r h
    · obtain ⟨p, _, rfl⟩ := List.mem_map.1 h; exact .wIv _ _
  · exact contextRows_isRow _ r h

namespace Keeps

variable {P : State → Prop} (K : Keeps P) {u : State}
include K

theorem configure (cfg : EngineConfig) (h : P u) : P (opConfigure cfg u) := by
  have h3 := K.rd IsRow.rDmacr (K.gap (K.rd IsRow.rSr (K.gap (K.rd IsRow.rCr h))))
  unfold opConfigure
  dsimp only
  split
  · exact K.result _ _ _ (K.gap h3)
  · split
    · exact K.result _ _ _ (K.gap h3)
    · exact K.result _ _ _ (K.gap (K.ctl _ _ (fun _ => ⟨rfl, rfl⟩) (K.wr (.wCr _) (K.gap h3))))

theorem loadKey (key : List WordPair) (h : P u) : P (opLoadKey key u) := by
  unfold opLoadKey
  split
  · exact K.result _ _ _ h
  · split
    · exact K.result _ _ _ h
    · have h1 := K.rd IsRow.rSr h
      dsimp only
      split
      · exact K.result _ _ _ (K.gap h1)
      · have h3 := K.rd IsRow.rDmacr (K.gap (K.rd IsRow.rCr (K.gap h1)))
        split
        · exact K.result _ _ _ (K.gap h3)
        · exact K.result _ _ _ (K.gap (K.ctl _ _ (fun _ => ⟨rfl, rfl⟩) (K.wrAll (keyRows_isRow _) h3)))

theorem loadIV (iv : IVMaterial) (h : P u) : P (opLoadIV iv u) := by
  unfold opLoadIV
  split
  · exact K.result _ _ _ h
  · split
    · exact K.result _ _ _ h
    · have h1 := K.rd IsRow.rSr h
      dsimp only
      split
      · exact K.result _ _ _ (K.gap h1)
      · have h3 := K.rd IsRow.rDmacr (K.gap (K.rd IsRow.rCr (K.gap h1)))
        split
        · exact K.result _ _ _ (K.gap h3)
        · exact K.result _ _ _ (K.gap (K.wrAll (ivRows_isRow _) h3))

theorem flushFIFOs (h : P u) : P (opFlushFIFOs u) := by
  have h1 := K.rd IsRow.rSr h
  unfold opFlushFIFOs
  dsimp only
  split
  · exact K.result _ _ _ (K.gap h1)
  · have h2 := K.rd IsRow.rCr (K.gap h1)
    split
    · exact K.result _ _ _ (K.gap h2)
    · exact K.result _ _ _ (K.gap (K.wr (.wCr _) (K.gap h2)))

theorem enable (h : P u) : P (opEnable u) := by
  unfold opEnable
  split
  · exact K.result _ _ _ h
  · split
    · exact K.result _ _ _ h
    · have h2 := fun v => K.wr (IsRow.wCr v) (K.gap (K.rd IsRow.rCr h))
      dsimp only
      split
      · exact K.result _ _ _ (K.gap (K.ctl _ _ (fun _ => ⟨rfl, rfl⟩) (h2 _)))
      · exact K.result _ _ _ (K.gap (h2 _))

theorem disable (h : P u) : P (opDisable u) :=
  K.result _ _ _ (K.gap (K.ctl _ _ (fun _ => ⟨rfl, rfl⟩) (K.wr (.wCr _) (K.gap (K.rd IsRow.rCr h)))))

theorem isBusy (h : P u) : P (opIsBusy u) := by
  have h1 := K.rd IsRow.rSr h
  unfold opIsBusy
  dsimp only
  split
  · exact K.result _ _ _ (K.gap (K.ctl _ _ (fun _ => ⟨rfl, rfl⟩) h1))
  · exact K.result _ _ _ (K.gap h1)

theorem dmaToggle (op : OpName) (m : Word) (b : Bool) (h : P u) : P (Machine.dmaToggle op m b u) :=
  K.result _ _ _ (K.gap (K.wr (.wDmacr _) (K.gap (K.rd IsRow.rDmacr h))))

theorem setInterruptMask (i o : Bool) (h : P u) : P (opSetInterruptMask i o u) :=
  K.result _ _ _ (K.gap (K.wr (.wImscr _) h))

theorem readInterruptStatus (h : P u) : P (opReadInterruptStatus u) := K.result _ _ _ (K.gap (K.rd IsRow.rMisr h))

theorem pushWord (w : Word) (h : P u) : P (opPushWord w u) := by
  have h1 := K.rd IsRow.rDmacr h
  unfold opPushWord
  dsimp only
  split
  · exact K.result _ _ _ (K.gap h1)
  · have h2 := K.rd IsRow.rSr (K.gap h1)
    split
    · exact K.result _ _ _ (K.gap h2)
    · exact K.result _ _ _ (K.gap (K.wr (.wDin _) (K.gap h2)))

theorem popWord (h : P u) : P (opPopWord u) := by
  have h1 := K.rd IsRow.rDmacr h
  unfold opPopWord
  dsimp only
  split
  · exact K.result _ _ _ (K.gap h1)
  · have h2 := K.rd IsRow.rSr (K.gap h1)
    split
    · exact K.result _ _ _ (K.gap h2)
    · exact K.result _ _ _ (K.gap (K.rd IsRow.rDout (K.gap h2)))

theorem flowPredicate (op : OpName) (bit : Nat) (h : P u) : P (Machine.flowPredicate op bit u) :=
  K.result _ _ _ (K.gap (K.rd IsRow.rSr h))

theorem setPhase (p : Phase) (h : P u) : P (opSetPhase p u) := by
  unfold opSetPhase
  split
  · exact K.result _ _ _ h
  · split
    · exact K.result _ _ _ h
    · split
      · exact K.result _ _ _ h
      · have h3 := K.rd IsRow.rDmacr (K.gap (K.rd IsRow.rSr (K.gap (K.rd IsRow.rCr h))))
        dsimp only
        split
        · exact K.result _ _ _ (K.gap h3)
        · exact K.result _ _ _ (K.gap (K.ctl _ _ (fun _ => ⟨rfl, rfl⟩) (K.wr (.wCr _) (K.gap h3))))

theorem readContext (b : Bool) (h : P u) : P (Machine.readContext b u).2 := by
  have hw := cswReadRows_isRow
  have hf := csfReadRows_isRow
  unfold Machine.readContext
  generalize cswReadRows = w at hw
  generalize csfReadRows = f at hf
  split
  · exact K.rdAll hf (K.rdAll hw h)
  · exact h

theorem saveCapture (cfg : EngineConfig) (dm0 : Word) (h : P u) : P (Machine.saveCapture cfg dm0 u) := by
  have h1 := fun v => K.gap (K.wr (IsRow.wDmacr v) (K.gap h))
  have h2 := fun v => K.rd IsRow.rCr (h1 v)
  have h5 := fun v v' => K.readContext cfg.mode.isAead
    (K.rdAll ivReadRows_isRow (K.wr (IsRow.wCr v') (K.gap (h2 v))))
  unfold Machine.saveCapture
  exact K.result _ _ _ (K.gap (K.capture _ _ (h5 _ _) rfl ⟨_, h1 _, by rw [rd_rCr]⟩))

theorem save (h : P u) : P (opSave u) := by
  unfold opSave
  split
  · exact K.result _ _ _ h
  · split
    · exact K.result _ _ _ h
    · have h2 := fun v => K.wr (IsRow.wDmacr v) (K.gap (K.rd IsRow.rDmacr h))
      dsimp only
      split
      · exact K.saveCapture _ _ (K.pollSr _ _ _ (h2 _))
      · exact K.result _ _ _ (K.gap (K.wr (.wDmacr _) (K.gap (K.pollSr _ _ _ (h2 _)))))

theorem restoreKeyPrep (bits : Word) (h : P u) : P (Machine.restoreKeyPrep bits u).2 := by
  have h1 := fun v => K.wr (IsRow.wCr v) (K.gap h)
  have h2 := fun m v n v' => K.pollSr m v n (h1 v')
  unfold Machine.restoreKeyPrep
  dsimp only
  split
  · dsimp only
    refine K.ctl _ _ ?_ (K.wr (.wCr _) (K.gap (h2 _ _ _ _)))
    exact fun _ => ⟨rfl, rfl⟩
  · dsimp only
    refine K.ctl _ _ ?_ (K.wr (.wCr _) (K.gap (K.wr (.wCr _) (K.gap (h2 _ _ _ _)))))
    exact fun _ => ⟨rfl, rfl⟩

theorem restoreFinish (cfg : EngineConfig) (snap : ContextSnapshot) (h : P u) : P (Machine.restoreFinish cfg snap u) :=
  K.result _ _ _ (K.gap (K.resume _ snap.id _ (fun _ => ⟨rfl, rfl⟩) (K.wr (.wCr _) (K.gap h))))

theorem restoreBody (cfg : EngineConfig) (snap : ContextSnapshot) (key : List WordPair) (h : P u) :
    P (Machine.restoreBody cfg snap key u) := by
  unfold Machine.restoreBody
  split
  · exact K.result _ _ _ h
  · have h2 := K.rd IsRow.rDmacr (K.gap (K.rd IsRow.rSr h))
    dsimp only
    split
    · exact K.result _ _ _ (K.gap h2)
    · have h5 := K.ctl _ (fun c => { c with prepared := false }) (fun _ => ⟨rfl, rfl⟩)
        (K.wrAll (restoreRows_isRow cfg snap key) (K.wr (.wCr snap.cfgBits) (K.gap h2)))
      split
      · split
        · exact K.restoreFinish _ _ (K.restoreKeyPrep _ h5)
        · exact K.result _ _ _ (K.gap (K.restoreKeyPrep _ h5))
      · exact K.restoreFinish _ _ h5

theorem restore (arg : Option ContextSnapshot) (key : List WordPair) (h : P u) : P (opRestore arg key u) := by
  rcases opRestore_cases u arg key with ⟨_, e⟩ | ⟨snap, cfg, _, _, _, _, e⟩
  · rw [e]; exact K.result _ _ _ h
  · rw [e]; exact K.restoreBody _ _ _ h

end Keeps

/-- Every instruction keeps what every part of its meaning keeps. -/
theorem exec_keeps {P : State → Prop} (K : Keeps P) {i : Instr} {u t : State} (hu : P u) (h : exec i u = .next t) : P t := by
  cases i
  case opReserved20 | opReserved24 => cases h
  case restore => cases h; exact K.restore _ _ hu
  case configure => cases h; exact K.configure _ hu
  case loadKey => cases h; exact K.loadKey _ hu
  case loadIV => cases h; exact K.loadIV _ hu
  case flushFIFOs => cases h; exact K.flushFIFOs hu
  case enable => cases h; exact K.enable hu
  case disable => cases h; exact K.disable hu
  case isBusy => cases h; exact K.isBusy hu
  case pushWord => cases h; exact K.pushWord _ hu
  case popWord => cases h; exact K.popWord hu
  case inputNotFull => cases h; exact K.flowPredicate _ _ hu
  case inputEmpty => cases h; exact K.flowPredicate _ _ hu
  case outputNotEmpty => cases h; exact K.flowPredicate _ _ hu
  case outputFull => cases h; exact K.flowPredicate _ _ hu
  case setPhase => cases h; exact K.setPhase _ hu
  case save => cases h; exact K.save hu
  case setInputDMA => cases h; exact K.dmaToggle _ _ _ hu
  case setOutputDMA => cases h; exact K.dmaToggle _ _ _ hu
  case setInterruptMask => cases h; exact K.setInterruptMask _ _ hu
  case readInterruptStatus => cases h; exact K.readInterruptStatus hu
  case rCr => cases h; exact K.host .rCr hu
  case wCr => cases h; exact K.host (.wCr _) hu
  case rSr => cases h; exact K.host .rSr hu
  case wSr => cases h; exact K.host (.wSr _) hu
  case rDin => cases h; exact K.host .rDin hu
  case wDin => cases h; exact K.host (.wDin _) hu
  case rDout => cases h; exact K.host .rDout hu
  case wDout => cases h; exact K.host (.wDout _) hu
  case rDmacr => cases h; exact K.host .rDmacr hu
  case wDmacr => cases h; exact K.host (.wDmacr _) hu
  case rImscr => cases h; exact K.host .rImscr hu
  case wImscr => cases h; exact K.host (.wImscr _) hu
  case rRisr => cases h; exact K.host .rRisr hu
  case wRisr => cases h; exact K.host (.wRisr _) hu
  case rMisr => cases h; exact K.host .rMisr hu
  case wMisr => cases h; exact K.host (.wMisr _) hu
  case rKey => cases h; exact K.host (.rKey _) hu
  case wKey => cases h; exact K.host (.wKey _ _) hu
  case rIv => cases h; exact K.host (.rIv _) hu
  case wIv => cases h; exact K.host (.wIv _ _) hu
  case rCswLo => cases h; exact K.host (.rCsw _) hu
  case wCswLo => cases h; exact K.host (.wCsw _ _) hu
  case rCswHi => cases h; exact K.host (.rCsw _) hu
  case wCswHi => cases h; exact K.host (.wCsw _ _) hu
  case rCsfLo => cases h; exact K.host (.rCsf _) hu
  case wCsfLo => cases h; exact K.host (.wCsf _ _) hu
  case rCsfHi => cases h; exact K.host (.rCsf _) hu
  case wCsfHi => cases h; exact K.host (.wCsf _ _) hu
  case busErrUnmapped90 => cases h; exact K.host .busErr hu
  case busErrUnmappedA0 => cases h; exact K.host .busErr hu
  case busErrUnmappedC0 => cases h; exact K.host .busErr hu
  case busErrMisalignedOdd => cases h; exact K.host .busErr hu
  case busErrMisalignedEven => cases h; exact K.host .busErr hu

end Sys2Proof.Machine
end

