-- ==== Sys2Proof/Laws/PerInstr.lean ====
section
/-! SUPPORT. The family `Encodable`: what the encoder writes for each instruction carries the match of its row of
spec/opcode_table.json under the row's mask (spec/30_encoding.md R140, R142, R155), one lemma for each constructor. -/

namespace Sys2Proof.Laws.Encodable

open Sys2Proof

/-- The match and the mask of the row of spec/opcode_table.json that a constructor stands for. -/
def row : Instr → Nat × Nat
  | .rCr _ => (0x000, 0x1FF)
  | .wCr _ _ => (0x100, 0x1FF)
  | .rSr _ => (0x004, 0x1FF)
  | .wSr _ _ => (0x104, 0x1FF)
  | .rDin _ => (0x008, 0x1FF)
  | .wDin _ _ => (0x108, 0x1FF)
  | .rDout _ => (0x00C, 0x1FF)
  | .wDout _ _ => (0x10C, 0x1FF)
  | .rDmacr _ => (0x010, 0x1FF)
  | .wDmacr _ _ => (0x110, 0x1FF)
  | .rImscr _ => (0x014, 0x1FF)
  | .wImscr _ _ => (0x114, 0x1FF)
  | .rRisr _ => (0x018, 0x1FF)
  | .wRisr _ _ => (0x118, 0x1FF)
  | .rMisr _ => (0x01C, 0x1FF)
  | .wMisr _ _ => (0x11C, 0x1FF)
  | .rKey _ _ => (0x020, 0x1E3)
  | .wKey _ _ _ => (0x120, 0x1E3)
  | .rIv _ _ => (0x040, 0x1F3)
  | .wIv _ _ _ => (0x140, 0x1F3)
  | .rCswLo _ _ => (0x050, 0x1F3)
  | .wCswLo _ _ _ => (0x150, 0x1F3)
  | .rCswHi _ _ => (0x060, 0x1F3)
  | .wCswHi _ _ _ => (0x160, 0x1F3)
  | .rCsfLo _ _ => (0x070, 0x1F3)
  | .wCsfLo _ _ _ => (0x170, 0x1F3)
  | .rCsfHi _ _ => (0x080, 0x1F3)
  | .wCsfHi _ _ _ => (0x180, 0x1F3)
  | .busErrUnmapped90 _ _ _ => (0x090, 0x0F3)
  | .busErrUnmappedA0 _ _ _ => (0x0A0, 0x0E3)
  | .busErrUnmappedC0 _ _ _ => (0x0C0, 0x0C3)
  | .busErrMisalignedOdd _ _ _ => (0x001, 0x001)
  | .busErrMisalignedEven _ _ _ => (0x002, 0x003)
  | .configure _ => (0x00, 0x1F)
  | .loadKey _ => (0x01, 0x1F)
  | .loadIV _ => (0x02, 0x1F)
  | .flushFIFOs => (0x03, 0x1F)
  | .enable => (0x04, 0x1F)
  | .disable => (0x05, 0x1F)
  | .isBusy => (0x06, 0x1F)
  | .pushWord _ => (0x07, 0x1F)
  | .popWord => (0x08, 0x1F)
  | .inputNotFull => (0x09, 0x1F)
  | .inputEmpty => (0x0A, 0x1F)
  | .outputNotEmpty => (0x0B, 0x1F)
  | .outputFull => (0x0C, 0x1F)
  | .setPhase _ => (0x0D, 0x1F)
  | .save => (0x0E, 0x1F)
  | .restore _ _ => (0x0F, 0x1F)
  | .setInputDMA _ => (0x10, 0x1F)
  | .setOutputDMA _ => (0x11, 0x1F)
  | .setInterruptMask _ _ => (0x12, 0x1F)
  | .readInterruptStatus => (0x13, 0x1F)
  | .opReserved20 _ => (0x14, 0x1C)
  | .opReserved24 _ => (0x18, 0x18)

/-- The selector T of a transaction or the operation code of an operation, as a number. -/
def selector : Record → Nat
  | .bus sel _ _ => sel.toNat
  | .op sel _ => sel.toNat

/-- The encoded selector has the row's match under the row's mask. -/
def Statement (i : Instr) : Prop := selector (encode i) &&& (row i).2 = (row i).1

/-- A constructor's statement from its selector and its row, each by evaluation. -/
theorem of_bits {i : Instr} (sel pattern mask : Nat) (hs : selector (encode i) = sel) (hr : row i = (pattern, mask))
    (h : sel &&& mask = pattern) : Statement i := by
  rw [Statement, hs, hr]; exact h

theorem rCr (width : Nat) : Statement (.rCr width) := 
  of_bits 0x000 0x000 0x1FF rfl rfl (by decide)
theorem wCr (width : Nat) (v : Word) : Statement (.wCr width v) := 
  of_bits 0x100 0x100 0x1FF rfl rfl (by decide)
theorem rSr (width : Nat) : Statement (.rSr width) := 
  of_bits 0x004 0x004 0x1FF rfl rfl (by decide)
theorem wSr (width : Nat) (v : Word) : Statement (.wSr width v) := 
  of_bits 0x104 0x104 0x1FF rfl rfl (by decide)
theorem rDin (width : Nat) : Statement (.rDin width) := 
  of_bits 0x008 0x008 0x1FF rfl rfl (by decide)
theorem wDin (width : Nat) (w : Word) : Statement (.wDin width w) := 
  of_bits 0x108 0x108 0x1FF rfl rfl (by decide)
theorem rDout (width : Nat) : Statement (.rDout width) := 
  of_bits 0x00C 0x00C 0x1FF rfl rfl (by decide)
theorem wDout (width : Nat) (v : Word) : Statement (.wDout width v) := 
  of_bits 0x10C 0x10C 0x1FF rfl rfl (by decide)
theorem rDmacr (width : Nat) : Statement (.rDmacr width) := 
  of_bits 0x010 0x010 0x1FF rfl rfl (by decide)
theorem wDmacr (width : Nat) (v : Word) : Statement (.wDmacr width v) := 
  of_bits 0x110 0x110 0x1FF rfl rfl (by decide)
theorem rImscr (width : Nat) : Statement (.rImscr width) := 
  of_bits 0x014 0x014 0x1FF rfl rfl (by decide)
theorem wImscr (width : Nat) (v : Word) : Statement (.wImscr width v) := 
  of_bits 0x114 0x114 0x1FF rfl rfl (by decide)
theorem rRisr (width : Nat) : Statement (.rRisr width) := 
  of_bits 0x018 0x018 0x1FF rfl rfl (by decide)
theorem wRisr (width : Nat) (v : Word) : Statement (.wRisr width v) := 
  of_bits 0x118 0x118 0x1FF rfl rfl (by decide)
theorem rMisr (width : Nat) : Statement (.rMisr width) := 
  of_bits 0x01C 0x01C 0x1FF rfl rfl (by decide)
theorem wMisr (width : Nat) (v : Word) : Statement (.wMisr width v) := 
  of_bits 0x11C 0x11C 0x1FF rfl rfl (by decide)
theorem rKey (width : Nat) (k : Fin 8) : Statement (.rKey width k) := 
  of_bits (indexedSel 0x020 k).toNat 0x020 0x1E3 rfl rfl (by revert k; decide)
theorem wKey (width : Nat) (k : Fin 8) (v : Word) : Statement (.wKey width k v) := 
  of_bits (indexedSel 0x120 k).toNat 0x120 0x1E3 rfl rfl (by revert k; decide)
theorem rIv (width : Nat) (v : Fin 4) : Statement (.rIv width v) := 
  of_bits (indexedSel 0x040 v).toNat 0x040 0x1F3 rfl rfl (by revert v; decide)
theorem wIv (width : Nat) (v : Fin 4) (x : Word) : Statement (.wIv width v x) := 
  of_bits (indexedSel 0x140 v).toNat 0x140 0x1F3 rfl rfl (by revert v; decide)
theorem rCswLo (width : Nat) (x : Fin 4) : Statement (.rCswLo width x) := 
  of_bits (indexedSel 0x050 x).toNat 0x050 0x1F3 rfl rfl (by revert x; decide)
theorem wCswLo (width : Nat) (x : Fin 4) (y : Word) : Statement (.wCswLo width x y) := 
  of_bits (indexedSel 0x150 x).toNat 0x150 0x1F3 rfl rfl (by revert x; decide)
theorem rCswHi (width : Nat) (x : Fin 4) : Statement (.rCswHi width x) := 
  of_bits (indexedSel 0x060 x).toNat 0x060 0x1F3 rfl rfl (by revert x; decide)
theorem wCswHi (width : Nat) (x : Fin 4) (y : Word) : Statement (.wCswHi width x y) := 
  of_bits (indexedSel 0x160 x).toNat 0x160 0x1F3 rfl rfl (by revert x; decide)
theorem rCsfLo (width : Nat) (x : Fin 4) : Statement (.rCsfLo width x) := 
  of_bits (indexedSel 0x070 x).toNat 0x070 0x1F3 rfl rfl (by revert x; decide)
theorem wCsfLo (width : Nat) (x : Fin 4) (y : Word) : Statement (.wCsfLo width x y) := 
  of_bits (indexedSel 0x170 x).toNat 0x170 0x1F3 rfl rfl (by revert x; decide)
theorem rCsfHi (width : Nat) (x : Fin 4) : Statement (.rCsfHi width x) := 
  of_bits (indexedSel 0x080 x).toNat 0x080 0x1F3 rfl rfl (by revert x; decide)
theorem wCsfHi (width : Nat) (x : Fin 4) (y : Word) : Statement (.wCsfHi width x y) := 
  of_bits (indexedSel 0x180 x).toNat 0x180 0x1F3 rfl rfl (by revert x; decide)
theorem busErrUnmapped90 (width : Nat) (a : Access) (o : BitVec 2) : Statement (.busErrUnmapped90 width a o) := by
  cases a with
  | read => exact of_bits ((0x000 : BitVec 9) + indexedSel 0x090 o.toNat).toNat 0x090 0x0F3 rfl rfl (by revert o; decide)
  | write d => exact of_bits ((0x100 : BitVec 9) + indexedSel 0x090 o.toNat).toNat 0x090 0x0F3 rfl rfl (by revert o; decide)
theorem busErrUnmappedA0 (width : Nat) (a : Access) (o : BitVec 3) : Statement (.busErrUnmappedA0 width a o) := by
  cases a with
  | read => exact of_bits ((0x000 : BitVec 9) + indexedSel 0x0A0 o.toNat).toNat 0x0A0 0x0E3 rfl rfl (by revert o; decide)
  | write d => exact of_bits ((0x100 : BitVec 9) + indexedSel 0x0A0 o.toNat).toNat 0x0A0 0x0E3 rfl rfl (by revert o; decide)
theorem busErrUnmappedC0 (width : Nat) (a : Access) (o : BitVec 4) : Statement (.busErrUnmappedC0 width a o) := by
  cases a with
  | read => exact of_bits ((0x000 : BitVec 9) + indexedSel 0x0C0 o.toNat).toNat 0x0C0 0x0C3 rfl rfl (by revert o; decide)
  | write d => exact of_bits ((0x100 : BitVec 9) + indexedSel 0x0C0 o.toNat).toNat 0x0C0 0x0C3 rfl rfl (by revert o; decide)
theorem busErrMisalignedOdd (width : Nat) (a : Access) (o : BitVec 7) : Statement (.busErrMisalignedOdd width a o) := by
  cases a with
  | read => exact of_bits ((0x000 : BitVec 9) + BitVec.ofNat 9 (2 * o.toNat + 1)).toNat 0x001 0x001 rfl rfl (by
      rw [Nat.and_one_is_mod, BitVec.toNat_add, BitVec.toNat_ofNat]; simp)
  | write d => exact of_bits ((0x100 : BitVec 9) + BitVec.ofNat 9 (2 * o.toNat + 1)).toNat 0x001 0x001 rfl rfl (by
      rw [Nat.and_one_is_mod, BitVec.toNat_add, BitVec.toNat_ofNat]; simp; omega)
theorem busErrMisalignedEven (width : Nat) (a : Access) (o : BitVec 6) : Statement (.busErrMisalignedEven width a o) := by
  cases a with
  | read => exact of_bits ((0x000 : BitVec 9) + BitVec.ofNat 9 (4 * o.toNat + 2)).toNat 0x002 0x003 rfl rfl (by
      rw [Nat.and_two_pow_sub_one_eq_mod _ 2, BitVec.toNat_add, BitVec.toNat_ofNat]; simp)
  | write d => exact of_bits ((0x100 : BitVec 9) + BitVec.ofNat 9 (4 * o.toNat + 2)).toNat 0x002 0x003 rfl rfl (by
      rw [Nat.and_two_pow_sub_one_eq_mod _ 2, BitVec.toNat_add, BitVec.toNat_ofNat]; simp; omega)
theorem configure (cfg : EngineConfig) : Statement (.configure cfg) := 
  of_bits 0x00 0x00 0x1F rfl rfl (by decide)
theorem loadKey (key : List WordPair) : Statement (.loadKey key) := 
  of_bits 0x01 0x01 0x1F rfl rfl (by decide)
theorem loadIV (iv : IVMaterial) : Statement (.loadIV iv) := 
  of_bits 0x02 0x02 0x1F rfl rfl (by decide)
theorem flushFIFOs : Statement .flushFIFOs := 
  of_bits 0x03 0x03 0x1F rfl rfl (by decide)
theorem enable : Statement .enable := 
  of_bits 0x04 0x04 0x1F rfl rfl (by decide)
theorem disable : Statement .disable := 
  of_bits 0x05 0x05 0x1F rfl rfl (by decide)
theorem isBusy : Statement .isBusy := 
  of_bits 0x06 0x06 0x1F rfl rfl (by decide)
theorem pushWord (w : Word) : Statement (.pushWord w) := 
  of_bits 0x07 0x07 0x1F rfl rfl (by decide)
theorem popWord : Statement .popWord := 
  of_bits 0x08 0x08 0x1F rfl rfl (by decide)
theorem inputNotFull : Statement .inputNotFull := 
  of_bits 0x09 0x09 0x1F rfl rfl (by decide)
theorem inputEmpty : Statement .inputEmpty := 
  of_bits 0x0A 0x0A 0x1F rfl rfl (by decide)
theorem outputNotEmpty : Statement .outputNotEmpty := 
  of_bits 0x0B 0x0B 0x1F rfl rfl (by decide)
theorem outputFull : Statement .outputFull := 
  of_bits 0x0C 0x0C 0x1F rfl rfl (by decide)
theorem setPhase (p : Phase) : Statement (.setPhase p) := 
  of_bits 0x0D 0x0D 0x1F rfl rfl (by decide)
theorem save : Statement .save := 
  of_bits 0x0E 0x0E 0x1F rfl rfl (by decide)
theorem restore (snap : Option ContextSnapshot) (key : List WordPair) : Statement (.restore snap key) := 
  of_bits 0x0F 0x0F 0x1F rfl rfl (by decide)
theorem setInputDMA (b : Bool) : Statement (.setInputDMA b) := 
  of_bits 0x10 0x10 0x1F rfl rfl (by decide)
theorem setOutputDMA (b : Bool) : Statement (.setOutputDMA b) := 
  of_bits 0x11 0x11 0x1F rfl rfl (by decide)
theorem setInterruptMask (inp : Bool) (out : Bool) : Statement (.setInterruptMask inp out) := 
  of_bits 0x12 0x12 0x1F rfl rfl (by decide)
theorem readInterruptStatus : Statement .readInterruptStatus := 
  of_bits 0x13 0x13 0x1F rfl rfl (by decide)
theorem opReserved20 (r : BitVec 2) : Statement (.opReserved20 r) := 
  of_bits (20 + r.setWidth 5 : BitVec 5).toNat 0x14 0x1C rfl rfl (by revert r; decide)
theorem opReserved24 (r : BitVec 3) : Statement (.opReserved24 r) := 
  of_bits (24 + r.setWidth 5 : BitVec 5).toNat 0x18 0x18 rfl rfl (by revert r; decide)

end Sys2Proof.Laws.Encodable
end

