-- ==== Sys2Proof/Machine/Asm.lean ====
section
/-! DEFINITION. The assembler syntax of spec/30_encoding.md R157 to R159 over tokens: register names and index aliases,
program lines, the pseudo-instructions, and the spelling of a configuration `ALG-MODE-DIR-Wwidth`. A toolchain aid:
`exec` and `step` do not use it. -/

namespace Sys2Proof.Machine

/-- The register names of R30 with their offsets. -/
def regNames : List (String × BitVec 8) :=
  [("CR", 0x00), ("SR", 0x04), ("DIN", 0x08), ("DOUT", 0x0C), ("DMACR", 0x10), ("IMSCR", 0x14), ("RISR", 0x18),
   ("MISR", 0x1C)] ++
  ([("K0LR", 0x20), ("K0RR", 0x24), ("K1LR", 0x28), ("K1RR", 0x2C), ("K2LR", 0x30), ("K2RR", 0x34), ("K3LR", 0x38),
   ("K3RR", 0x3C), ("IV0LR", 0x40), ("IV0RR", 0x44), ("IV1LR", 0x48), ("IV1RR", 0x4C)] ++
  ([("CSGCMCCM0R", 0x50), ("CSGCMCCM1R", 0x54), ("CSGCMCCM2R", 0x58), ("CSGCMCCM3R", 0x5C), ("CSGCMCCM4R", 0x60),
   ("CSGCMCCM5R", 0x64), ("CSGCMCCM6R", 0x68), ("CSGCMCCM7R", 0x6C)] ++
  [("CSGCM0R", 0x70), ("CSGCM1R", 0x74), ("CSGCM2R", 0x78), ("CSGCM3R", 0x7C), ("CSGCM4R", 0x80), ("CSGCM5R", 0x84),
   ("CSGCM6R", 0x88), ("CSGCM7R", 0x8C)]))

/-- The index aliases of R157: K[i], IV[i], CSW[i] and CSF[i]. -/
inductive RegAlias where
  | k (i : Fin 8)
  | iv (i : Fin 4)
  | csw (i : Fin 8)
  | csf (i : Fin 8)
deriving DecidableEq, Repr

/-- The offset of an index alias (R30): base + 4i. -/
def aliasOffset : RegAlias → BitVec 8
  | .k i => 0x20 + 4 * BitVec.ofNat 8 i.val
  | .iv i => 0x40 + 4 * BitVec.ofNat 8 i.val
  | .csw i => 0x50 + 4 * BitVec.ofNat 8 i.val
  | .csf i => 0x70 + 4 * BitVec.ofNat 8 i.val

/-- The offset a register name stands for (R157). -/
def regOffset (name : String) : Option (BitVec 8) := regNames.lookup name

/-- `rd REG` (R157). -/
def asmRd (name : String) : Option Line := (regOffset name).map fun off => .record (readRecord off)

/-- `wr REG, imm32` (R157). -/
def asmWr (name : String) (v : Word) : Option Line := (regOffset name).map fun off => .record (writeRecord off v)

/-- `setb REG, m` (R158). -/
def asmSetb (name : String) (m : Word) : Option Line := (regOffset name).map fun off => .setb off m

/-- `clrb REG, m` (R158). -/
def asmClrb (name : String) (m : Word) : Option Line := (regOffset name).map fun off => .clrb off m

/-- `push w`, which is `wr DIN, w` (R158). -/
def asmPush (w : Word) : Line := .record (writeRecord 0x08 w)

/-- `pop`, which is `rd DOUT` (R158). -/
def asmPop : Line := .record (readRecord 0x0C)

/-- `poll REG, m, v, n` (R158); n is a literal at least 1. -/
def asmPoll (name : String) (m v : Word) (n : Nat) : Option Line :=
  if n = 0 then none else (regOffset name).map fun off => .poll off m v n

/-- An operation line (R159). -/
def asmOp (i : Instr) : Line := .record (encode i)

/-- The mode of an algorithm and a mode token; a pair outside R2, such as DES and GCM, is refused (R159). -/
def asmMode (alg mode : String) : Option (Mode × Option KeySize) :=
  if alg == "DES" then (desModes.lookup mode).map fun p => (p.2, none)
  else if alg == "TDES" then (desModes.lookup mode).map fun p => (p.1, none)
  else
    match aesSizes.lookup alg, aesModes.lookup mode with
    | some k, some m => some (m, some k)
    | _, _ => none
where
  /-- ECB and CBC, for TDES and for DES. -/
  desModes : List (String × (Mode × Mode)) := [("ECB", (.tdesEcb, .desEcb)), ("CBC", (.tdesCbc, .desCbc))]
  /-- The AES key sizes. -/
  aesSizes : List (String × KeySize) := [("AES128", .k128), ("AES192", .k192), ("AES256", .k256)]
  /-- The AES modes. -/
  aesModes : List (String × Mode) :=
    [("ECB", .aesEcb), ("CBC", .aesCbc), ("CTR", .aesCtr), ("GCM", .aesGcm), ("CCM", .aesCcm), ("KEYPREP", .aesKeyPrep)]

/-- The width of a width token (R159). -/
def asmWidth (w : String) : Option DataWidth :=
  [("W32", DataWidth.w32), ("W16", .w16), ("W8", .w8), ("W1", .w1)].lookup w

/-- The direction of a direction token (R159). -/
def asmDir (d : String) : Option Dir := [("ENC", Dir.enc), ("DEC", Dir.dec)].lookup d

/-- A configuration from its parts. -/
def asmConfigOf (alg mode width : String) (dir : Option Dir) : Option EngineConfig :=
  match asmMode alg mode, asmWidth width, dir with
  | some m, some w, some d => some { mode := m.1, width := w, keySize := m.2, dir := d }
  | _, _, _ => none

/-- A configuration spelling, split at its hyphens (R159). DIR may be left out for KEYPREP, and then means ENC. -/
def asmConfig : List String → Option EngineConfig
  | [alg, mode, dir, width] => asmConfigOf alg mode width (asmDir dir)
  | [alg, mode, width] => if mode == "KEYPREP" then asmConfigOf alg mode width (some .enc) else none
  | _ => none

end Sys2Proof.Machine
end

