-- ==== Sys2Proof/Tests/Slice0.lean ====
section
/-! SUPPORT. Small tests: the checks of WellFormed.lean, words written out from the spec's encodings, one step of each
instruction from the vectors of spec/95_test_vectors.md, and for each statement with hypotheses a concrete case that meets
them. The expected results are the spec's, by hand. -/

namespace Sys2Proof.Tests

open Sys2Proof Sys2Proof.Machine

/-- The test `p` of the next state; false where there is none. -/
def after (o : Host.Outcome State Fault Refusal) (p : State → Bool) : Bool :=
  match o with
  | .next t => p t
  | .fault _ => false
  | .refused _ => false

/-- The results in the event history, the last first. -/
def lastResult (t : State) : Option OpResult :=
  match t.events.getLast? with
  | some (.hostResult _ r) => some r
  | _ => none

/-! ### Well-formedness: each check refuses an ill-formed term -/

def snapGcm : ContextSnapshot :=
  { id := 0, cfgBits := 0x000A0000, iv := #v[1, 2, 3, 4]
    ctx := some { working := Vector.replicate 8 5, final := Vector.replicate 8 6 } }

theorem test_wf_refuses_width_zero : (Instr.rCr 0).wf = false := by decide
theorem test_wf_refuses_width_256 : (Instr.wDin 256 7).wf = false := by decide
theorem test_wf_refuses_aes_without_key_size :
    (Instr.configure { mode := .aesCtr, width := .w32, keySize := none, dir := .enc }).wf = false := by decide
theorem test_wf_refuses_des_with_key_size :
    (Instr.configure { mode := .desEcb, width := .w32, keySize := some .k128, dir := .enc }).wf = false := by decide
theorem test_wf_refuses_snapshot_id_above_a_word :
    (Instr.restore (some { snapGcm with id := 2 ^ 32 }) []).wf = false := by decide
theorem test_wf_accepts_every_snapshot_a_record_holds :
    (Instr.restore (some snapGcm) [(1, 2), (3, 4)]).wf = true ∧ (Instr.restore none []).wf = true
      ∧ (Instr.restore (some { snapGcm with cfgBits := 0x00000020 }) []).wf = true := by decide

/-! ### Decoding: words written out from R140, R142, R152, R155 and R160 -/

theorem test_decode_ports :
    decode (.bus 0x000 0 0) = .ok (.rCr 4) ∧ decode (.bus 0x100 0 0x00008028) = .ok (.wCr 4 0x00008028)
      ∧ decode (.bus 0x004 0 0) = .ok (.rSr 4) ∧ decode (.bus 0x104 0 1) = .ok (.wSr 4 1)
      ∧ decode (.bus 0x008 0 0) = .ok (.rDin 4) ∧ decode (.bus 0x108 0 0x00112233) = .ok (.wDin 4 0x00112233)
      ∧ decode (.bus 0x00C 0 0) = .ok (.rDout 4) ∧ decode (.bus 0x10C 0 5) = .ok (.wDout 4 5) := by decide
theorem test_decode_interrupt_registers :
    decode (.bus 0x010 0 0) = .ok (.rDmacr 4) ∧ decode (.bus 0x110 0 3) = .ok (.wDmacr 4 3)
      ∧ decode (.bus 0x014 0 0) = .ok (.rImscr 4) ∧ decode (.bus 0x114 0 2) = .ok (.wImscr 4 2)
      ∧ decode (.bus 0x018 0 0) = .ok (.rRisr 4) ∧ decode (.bus 0x118 0 0) = .ok (.wRisr 4 0)
      ∧ decode (.bus 0x01C 0 0) = .ok (.rMisr 4) ∧ decode (.bus 0x11C 0 0) = .ok (.wMisr 4 0) := by decide
theorem test_decode_key_and_iv :
    decode (.bus 0x030 0 0) = .ok (.rKey 4 4) ∧ decode (.bus 0x13C 0 9) = .ok (.wKey 4 7 9)
      ∧ decode (.bus 0x048 0 0) = .ok (.rIv 4 2) ∧ decode (.bus 0x14C 0 8) = .ok (.wIv 4 3 8) := by decide
theorem test_decode_context :
    decode (.bus 0x05C 0 0) = .ok (.rCswLo 4 3) ∧ decode (.bus 0x150 0 1) = .ok (.wCswLo 4 0 1)
      ∧ decode (.bus 0x060 0 0) = .ok (.rCswHi 4 0) ∧ decode (.bus 0x16C 0 1) = .ok (.wCswHi 4 3 1)
      ∧ decode (.bus 0x074 0 0) = .ok (.rCsfLo 4 1) ∧ decode (.bus 0x178 0 2) = .ok (.wCsfLo 4 2 2)
      ∧ decode (.bus 0x080 0 0) = .ok (.rCsfHi 4 0) ∧ decode (.bus 0x18C 0 5) = .ok (.wCsfHi 4 3 5) := by decide
theorem test_decode_bus_errors :
    decode (.bus 0x09C 0 0) = .ok (.busErrUnmapped90 4 .read 3)
      ∧ decode (.bus 0x1A4 0 6) = .ok (.busErrUnmappedA0 4 (.write 6) 1)
      ∧ decode (.bus 0x1FC 0 1) = .ok (.busErrUnmappedC0 4 (.write 1) 15)
      ∧ decode (.bus 0x001 0 0) = .ok (.busErrMisalignedOdd 4 .read 0)
      ∧ decode (.bus 0x10A 0 7) = .ok (.busErrMisalignedEven 4 (.write 7) 2)
      ∧ decode (.bus 0x000 2 0) = .ok (.rCr 2) ∧ decode (.bus 0x108 1 7) = .ok (.wDin 1 7)
 := by decide
theorem test_decode_operations :
    decode (.op 0 [0x000002AC]) = .ok (.configure { mode := .aesCbc, width := .w8, keySize := some .k256, dir := .dec })
      ∧ decode (.op 1 [1, 2, 3, 4]) = .ok (.loadKey [(1, 2), (3, 4)])
      ∧ decode (.op 2 [1, 2, 3, 4]) = .ok (.loadIV { iv0 := (1, 2), iv1 := (3, 4) })
      ∧ decode (.op 3 []) = .ok .flushFIFOs ∧ decode (.op 4 []) = .ok .enable ∧ decode (.op 5 []) = .ok .disable
      ∧ decode (.op 6 []) = .ok .isBusy ∧ decode (.op 7 [0x00112233]) = .ok (.pushWord 0x00112233)
      ∧ decode (.op 8 []) = .ok .popWord ∧ decode (.op 9 []) = .ok .inputNotFull ∧ decode (.op 10 []) = .ok .inputEmpty
      ∧ decode (.op 11 []) = .ok .outputNotEmpty ∧ decode (.op 12 []) = .ok .outputFull := by decide
theorem test_decode_phase_dma_and_reserved :
    decode (.op 13 [3]) = .ok (.setPhase .final) ∧ decode (.op 14 []) = .ok .save
      ∧ decode (.op 16 [1]) = .ok (.setInputDMA true) ∧ decode (.op 17 [0]) = .ok (.setOutputDMA false)
      ∧ decode (.op 18 [2]) = .ok (.setInterruptMask false true) ∧ decode (.op 19 []) = .ok .readInterruptStatus
      ∧ decode (.op 23 []) = .ok (.opReserved20 3) ∧ decode (.op 24 []) = .ok (.opReserved24 0)
      ∧ decode (.op 0 [0x00080010]) = .error .reservedConfig ∧ decode (.op 0 [0x00000320]) = .error .reservedConfig := by decide
/-- R160: id, cfgBits, IV, the presence word and the sixteen context words, then two key pairs. -/
theorem test_decode_restore :
    decode (.op 15 ([0, 0x000A0000, 1, 2, 3, 4, 1, 5, 5, 5, 5, 5, 5, 5, 5, 6, 6, 6, 6, 6, 6, 6, 6] ++ [7, 8, 9, 10]))
      = .ok (.restore (some snapGcm) [(7, 8), (9, 10)])
      ∧ decode (.op 15 [0, 0x000A0000, 1, 2, 3, 4, 2]) = .ok (.restore none []) := by decide
/-- R103: the lane of the lowest address holds bits 7 to 0. -/
theorem test_word_bytes : wordBytes 0x44332211 = [0x11, 0x22, 0x33, 0x44] := by decide
theorem test_table_words :
    decodeTableWord 16 0x108 = some (.wDin 4 0) ∧ decodeTableWord 16 0x004 = some (.rSr 4)
      ∧ decodeTableWord 8 0x0E = some .save ∧ decodeTableWord 8 0x1F = some (.opReserved24 7) := by decide
theorem test_fetched_word_runs : step (State.reset.withFetchWord 16 0x100) = exec (.wCr 4 0) State.reset := rfl

/-! ### Configuration vectors A1 to A3 -/

theorem test_encode_config_vectors :
    encodeConfig { mode := .tdesCbc, width := .w32, keySize := none, dir := .dec } = 0x0000000C
      ∧ encodeConfig { mode := .aesKeyPrep, width := .w32, keySize := some .k192, dir := .enc } = 0x00000138
      ∧ encodeConfig { mode := .aesGcm, width := .w16, keySize := some .k192, dir := .dec } = 0x00080144
      ∧ encodeConfig { mode := .aesCcm, width := .w32, keySize := some .k256, dir := .enc } = 0x00080208
      ∧ encodeConfig { mode := .aesEcb, width := .w1, keySize := some .k128, dir := .enc } = 0x000000E0 := by decide
theorem test_decode_config_vectors :
    decodeConfig 0x000A0000 = some { mode := .aesGcm, width := .w32, keySize := some .k128, dir := .enc }
      ∧ phaseOf 0x000A0000 = .payload
      ∧ decodeConfig 0x00000310 = some { mode := .desEcb, width := .w32, keySize := none, dir := .enc } := by decide
/-- R159: the spelling of a configuration, and the pair DES and GCM refused. -/
theorem test_config_spelling :
    (asmConfig ["AES256", "CBC", "DEC", "W8"]).map encodeConfig = some 0x000002AC
      ∧ (asmConfig ["AES192", "KEYPREP", "W32"]).map encodeConfig = some 0x00000138
      ∧ asmConfig ["DES", "GCM", "ENC", "W32"] = none
      ∧ asmRd "CSGCM7R" = some (.record (.bus 0x08C 0 0)) ∧ asmPush 5 = .record (.bus 0x108 0 5) := by decide

/-! ### One step of each instruction -/

/-- Reset, with CR at a value. -/
def at_ (cr : Word) : State := { State.reset with cr := cr }

/-- A pass in flight (non-eager). -/
def busyAt (cr : Word) (p : Pass) (ws : List Word) : State :=
  { at_ cr with busy := true, pass := some p, inflight := ws }

/-- An open session. -/
def session (s : State) (m : Mode) (k : Option KeySize) (d : Dir) (tr : Option Phase) : State :=
  { s with ctl := { s.ctl with cfg := some { mode := m, width := .w32, keySize := k, dir := d }, tracker := tr } }

/-- A DES-ECB pass in flight, of a DES-ECB session. -/
def desBusy : State := session (busyAt 0x8010 (.data 2) [7, 8]) .desEcb none .enc none

/-- GCM encrypt in the Payload phase, enabled and drained, of an AES-128 session. -/
def gcmPayload : State := session (at_ 0x000A8000) .aesGcm (some .k128) .enc (some .payload)

/-- A snapshot of a CBC decrypt session. -/
def snapCbcDec : ContextSnapshot := { id := 0, cfgBits := 0x2C, iv := #v[1, 2, 3, 4], ctx := none }

/-- A drained block where the snapshot with id 0 is outstanding and the host holds it. -/
def holding : State :=
  { State.reset with ctl := { Controller.reset with outstanding := [0], nextId := 1 }, snaps := [snapCbcDec] }

-- R200; A4 row 1: bits 31 to 20 are not stored.
theorem test_rCr_reads_stored_bits : after (exec (.rCr 4) (at_ 0x20)) (·.reads == [0x20]) = true := by decide
theorem test_rCr_width_2_is_bus_error :
    after (exec (.rCr 2) (at_ 0x20)) (fun t => t.faults == [.busError] && t.reads == []) = true := by decide
-- A4: a reserved mode code goes before ConfigWhileActive (A5); enabled and not drained.
theorem test_wCr_reserved_before_active :
    after (exec (.wCr 4 0x00080010) { at_ 0x8010 with inQ := [1] })
      (fun t => t.faults == [.reservedConfig] && t.cr == 0x8010) = true := by decide
theorem test_wCr_drops_reserved_bits_and_flushes :
    after (exec (.wCr 4 0xFFF04020) { State.reset with inQ := [1], outQ := [2] })
      (fun t => t.cr == 0x20 && t.inQ == [] && t.outQ == [] && t.faults == []) = true := by decide
-- B: an AES stall, four words in and five out, reads 0x06; eight outputs read 0x0F.
theorem test_rSr_stall : after (exec (.rSr 4) { at_ 0x8020 with inQ := [1, 2, 3, 4], outQ := [1, 2, 3, 4, 5] })
    (·.reads == [0x06]) = true := by decide
theorem test_rSr_output_full : after (exec (.rSr 4) { at_ 0x8010 with outQ := [1, 2, 3, 4, 5, 6, 7, 8] })
    (·.reads == [0x0F]) = true := by decide
-- B2
theorem test_wSr_no_effect : exec (.wSr 4 0xFFFFFFFF) gcmPayload = .next gcmPayload := rfl
-- C
theorem test_rDin_leaves_fifo :
    after (exec (.rDin 4) { State.reset with inQ := [1] }) (fun t => t.inQ == [1] && t.faults == []) = true := by decide
theorem test_wDin_pushes_at_tail :
    after (exec (.wDin 4 9) { State.reset with inQ := [1, 2] }) (·.inQ == [1, 2, 9]) = true := by decide
theorem test_wDin_overrun :
    after (exec (.wDin 4 1) { State.reset with inQ := [1, 2, 3, 4, 5, 6, 7, 8] })
      (fun t => t.faults == [.inFifoOverrun] && t.inQ == [1, 2, 3, 4, 5, 6, 7, 8]) = true := by decide
theorem test_rDout_pops_oldest :
    after (exec (.rDout 4) { State.reset with outQ := [5, 6] }) (fun t => t.reads == [5] && t.outQ == [6]) = true := by decide
theorem test_rDout_underrun : after (exec (.rDout 4) State.reset)
    (fun t => t.faults == [.outFifoUnderrun] && t.reads == []) = true := by decide
theorem test_wDout_no_effect : exec (.wDout 4 5) gcmPayload = .next gcmPayload := rfl
-- D1
theorem test_wDmacr_keeps_two_bits : after (exec (.wDmacr 4 0xFFFFFFFF) State.reset) (·.dmacr == 3) = true := by decide
theorem test_rDmacr : after (exec (.rDmacr 4) { State.reset with dmacr := 2 }) (·.reads == [2]) = true := by decide
theorem test_rImscr : after (exec (.rImscr 4) { State.reset with imscr := 1 }) (·.reads == [1]) = true := by decide
-- D3 line 1; D1
theorem test_wImscr_notifies : after (exec (.wImscr 4 7) State.reset)
    (fun t => t.imscr == 3 && t.events == [.notify .input true]) = true := by decide
-- D2 rows 4 and 5
theorem test_rRisr : after (exec (.rRisr 4) { State.reset with inQ := [1, 2, 3, 4, 5, 6, 7, 8], outQ := [1, 2] })
    (·.reads == [2]) = true := by decide
theorem test_rMisr : after (exec (.rMisr 4) { State.reset with inQ := [1, 2, 3], outQ := [1, 2], imscr := 2 })
    (·.reads == [2]) = true := by decide
theorem test_wRisr_no_effect : exec (.wRisr 4 0) gcmPayload = .next gcmPayload := rfl
theorem test_wMisr_no_effect : exec (.wMisr 4 0) gcmPayload = .next gcmPayload := rfl
-- D4: a flush owes both notifications, IN first.
theorem test_flush_notifies_both :
    after (exec (.wCr 4 0x4000) { State.reset with imscr := 3, inQ := [1, 2, 3, 4, 5, 6, 7, 8], outQ := [1, 2] })
      (·.events == [.notify .input true, .notify .output false]) = true := by decide
-- E
theorem test_rKey_changes_no_key : after (exec (.rKey 4 4) State.reset) (·.key == State.reset.key) = true := by decide
theorem test_wKey_clears_preparation :
    after (exec (.wKey 4 7 5) { State.reset with decKeyReady := true })
      (fun t => t.key == #v[0, 0, 0, 0, 0, 0, 0, 5] && !t.decKeyReady) = true := by decide
theorem test_wKey_busy : after (exec (.wKey 4 2 1) desBusy)
    (fun t => t.faults == [.keyWriteWhileBusy] && t.key == State.reset.key) = true := by decide
theorem test_rIv : after (exec (.rIv 4 2) { State.reset with iv := #v[1, 2, 0x8899AABB, 4] })
    (·.reads == [0x8899AABB]) = true := by decide
theorem test_wIv : after (exec (.wIv 4 3 9) State.reset) (·.iv == #v[0, 0, 0, 9]) = true := by decide
theorem test_wIv_busy : after (exec (.wIv 4 0 1) desBusy)
    (fun t => t.faults == [.ivWriteWhileBusy] && t.iv == State.reset.iv) = true := by decide
theorem test_rCswLo : after (exec (.rCswLo 4 3) { State.reset with csw := #v[0, 1, 2, 3, 4, 5, 6, 7] })
    (·.reads == [3]) = true := by decide
theorem test_rCswHi : after (exec (.rCswHi 4 0) { State.reset with csw := #v[0, 1, 2, 3, 4, 5, 6, 7] })
    (·.reads == [4]) = true := by decide
theorem test_rCsfLo : after (exec (.rCsfLo 4 1) { State.reset with csf := #v[0, 1, 2, 3, 4, 5, 6, 7] })
    (·.reads == [1]) = true := by decide
theorem test_rCsfHi : after (exec (.rCsfHi 4 3) { State.reset with csf := #v[0, 1, 2, 3, 4, 5, 6, 7] })
    (·.reads == [7]) = true := by decide
theorem test_wCswLo_busy : after (exec (.wCswLo 4 3 1) desBusy)
    (fun t => t.faults == [.ctxWriteWhileBusy] && t.csw == State.reset.csw) = true := by decide
theorem test_wCswHi : after (exec (.wCswHi 4 0 5) State.reset)
    (fun t => t.csw == #v[0, 0, 0, 0, 5, 0, 0, 0] && t.csf == State.reset.csf) = true := by decide
theorem test_wCsfLo : after (exec (.wCsfLo 4 2 5) State.reset)
    (fun t => t.csf == #v[0, 0, 5, 0, 0, 0, 0, 0] && t.csw == State.reset.csw) = true := by decide
theorem test_wCsfHi_busy : after (exec (.wCsfHi 4 3 1) desBusy)
    (fun t => t.faults == [.ctxWriteWhileBusy] && t.csf == State.reset.csf) = true := by decide
-- F
theorem test_busErr_unmapped_90 : after (exec (.busErrUnmapped90 4 .read 0) State.reset)
    (fun t => t.faults == [.busError] && t.reads == []) = true := by decide
theorem test_busErr_unmapped_A0 : after (exec (.busErrUnmappedA0 4 (.write 1) 7) State.reset)
    (·.faults == [.busError]) = true := by decide
theorem test_busErr_unmapped_C0 : after (exec (.busErrUnmappedC0 4 (.write 1) 15) State.reset)
    (·.faults == [.busError]) = true := by decide
theorem test_busErr_odd : after (exec (.busErrMisalignedOdd 4 .read 0) State.reset)
    (·.faults == [.busError]) = true := by decide
theorem test_busErr_even_leaves_fifo : after (exec (.busErrMisalignedEven 4 (.write 7) 2) State.reset)
    (fun t => t.faults == [.busError] && t.inQ == []) = true := by decide
-- H1, H3
theorem test_configure : after (exec (.configure { mode := .aesEcb, width := .w32, keySize := some .k128, dir := .enc })
    State.reset) (fun t => t.cr == 0x20 && t.ctl.cfg.isSome && lastResult t == some .ok) = true := by decide
theorem test_configure_needs_dma_detached :
    after (exec (.configure { mode := .desCbc, width := .w32, keySize := none, dir := .enc }) { at_ 0x8010 with dmacr := 1 })
      (fun t => t.cr == 0x8010 && lastResult t == some (.err .engineActive)) = true := by decide
-- H8, H9
theorem test_loadKey_des_slot_1 :
    after (exec (.loadKey [(0x13345779, 0x9BBCDFF1)]) (session (at_ 0x10) .desEcb none .enc none))
      (fun t => t.key == #v[0, 0, 0x13345779, 0x9BBCDFF1, 0, 0, 0, 0] && lastResult t == some .ok) = true := by decide
theorem test_loadKey_tdes_slots :
    after (exec (.loadKey [(1, 2), (3, 4), (5, 6)]) (session (at_ 0) .tdesEcb none .enc none))
      (fun t => t.key == #v[0, 0, 1, 2, 3, 4, 5, 6] && t.faults == []) = true := by decide
-- H12, H13
theorem test_loadIV_des_cbc_pair :
    after (exec (.loadIV { iv0 := (0x00112233, 0x44556677), iv1 := (8, 9) }) (session (at_ 0x18) .desCbc none .enc none))
      (fun t => t.iv == #v[0x00112233, 0x44556677, 0, 0] && lastResult t == some .ok) = true := by decide
theorem test_loadIV_busy :
    after (exec (.loadIV { iv0 := (1, 2), iv1 := (3, 4) })
      (session (busyAt 0x8028 (.data 4) [1, 2, 3, 4]) .aesCbc (some .k128) .enc none))
      (fun t => t.iv == State.reset.iv && lastResult t == some (.err .busyIVLoad)) = true := by decide
-- H15, H14
theorem test_flush : after (exec .flushFIFOs { at_ 0x20 with inQ := [1, 2, 3] })
    (fun t => t.inQ == [] && t.cr == 0x20 && lastResult t == some .ok) = true := by decide
theorem test_flush_enabled : after (exec .flushFIFOs { at_ 0x8020 with inQ := [1] })
    (fun t => t.inQ == [1] && lastResult t == some (.err .engineActive)) = true := by decide
-- H20, H19
theorem test_enable_starts_key_preparation :
    after (exec .enable (session (at_ 0x38) .aesKeyPrep (some .k128) .enc none))
      (fun t => t.cr == 0x8038 && t.pass == some .keyPrep && t.ctl.keyPrepPending && lastResult t == some .ok) = true := by
  decide
theorem test_enable_gcm_without_phase :
    after (exec .enable (session (at_ 0x00080000) .aesGcm (some .k128) .enc none))
      (fun t => t.cr == 0x00080000 && lastResult t == some (.err .phaseOrder)) = true := by decide
-- H21; G10
theorem test_disable_aborts : after (exec .disable (busyAt 0x000A8000 (.data 4) [1, 2, 3, 4]))
    (fun t => t.cr == 0x000A0000 && !t.busy && t.pass == none && t.inflight == []
      && t.events.take 1 == [.abort (.data 4)] && t.faults == []) = true := by decide
-- H22, H23
theorem test_isBusy_records_preparation :
    after (exec .isBusy { at_ 0x8038 with
      decKeyReady := true, ctl := { Controller.reset with keyPrepPending := true } })
      (fun t => t.ctl.prepared && !t.ctl.keyPrepPending && lastResult t == some (.bool false)) = true := by decide
theorem test_isBusy_in_flight :
    after (exec .isBusy { busyAt 0x8038 .keyPrep [] with ctl := { Controller.reset with keyPrepPending := true } })
      (fun t => !t.ctl.prepared && lastResult t == some (.bool true)) = true := by decide
-- I1, I3
theorem test_pushWord : after (exec (.pushWord 0x00112233) State.reset)
    (fun t => t.inQ == [0x00112233] && t.srWord == 2 && lastResult t == some .ok) = true := by decide
theorem test_pushWord_full : after (exec (.pushWord 9) { State.reset with inQ := [1, 2, 3, 4, 5, 6, 7, 8] })
    (fun t => t.inQ.length == 8 && t.faults == [] && lastResult t == some (.err .inputFull)) = true := by decide
-- I4, I6
theorem test_popWord : after (exec .popWord { at_ 0x8020 with outQ := [0x69C4E0D8] })
    (fun t => t.outQ == [] && lastResult t == some (.okWord 0x69C4E0D8)) = true := by decide
theorem test_popWord_dma : after (exec .popWord { State.reset with outQ := [1], dmacr := 2 })
    (fun t => t.outQ == [1] && lastResult t == some (.err .dmaConflict)) = true := by decide
-- I7, I8
theorem test_inputNotFull : after (exec .inputNotFull State.reset) (lastResult · == some (.bool true)) = true := by decide
theorem test_inputEmpty : after (exec .inputEmpty { State.reset with inQ := [1] })
    (lastResult · == some (.bool false)) = true := by decide
theorem test_outputNotEmpty : after (exec .outputNotEmpty State.reset) (lastResult · == some (.bool false)) = true := by
  decide
theorem test_outputFull : after (exec .outputFull { State.reset with outQ := [1, 2, 3, 4, 5, 6, 7, 8] })
    (lastResult · == some (.bool true)) = true := by decide
-- J2d, J2f
theorem test_setPhase_final : after (exec (.setPhase .final) gcmPayload)
    (fun t => t.cr == 0x000B8000 && t.ctl.tracker == some .final && lastResult t == some .ok) = true := by decide
theorem test_setPhase_order : after (exec (.setPhase .header) gcmPayload)
    (fun t => t.cr == 0x000A8000 && t.ctl.tracker == some .payload && lastResult t == some (.err .phaseOrder)) = true := by
  decide
-- K3, K4
theorem test_save_gcm : after (exec .save { gcmPayload with
      iv := snapGcm.iv, csw := Vector.replicate 8 5, csf := Vector.replicate 8 6, dmacr := 2 })
    (fun t => t.snaps == [snapGcm] && t.cr == 0x000A0000 && t.dmacr == 0 && t.ctl.cfg == none
      && t.ctl.outstanding == [0] && t.ctl.nextId == 1 && lastResult t == some (.okSnapshot snapGcm)) = true := by
  decide +kernel
theorem test_save_times_out : after (exec .save { session (at_ 0x8010) .desEcb none .enc none with inQ := [1], dmacr := 3 })
    (fun t => t.cr == 0x8010 && t.dmacr == 3 && t.ctl.cfg.isSome && lastResult t == some (.err .drainTimeout)) = true := by
  decide
-- K6, K11
theorem test_restore_gcm : after (exec (.restore (some snapGcm) [(7, 8), (9, 10)])
      { holding with snaps := [snapGcm] })
    (fun t => t.cr == 0x000A8000 && t.key == #v[0, 0, 0, 0, 7, 8, 9, 10] && t.iv == snapGcm.iv
      && t.csw == Vector.replicate 8 5 && t.csf == Vector.replicate 8 6 && t.ctl.tracker == some .payload
      && t.ctl.outstanding == [] && lastResult t == some .ok) = true := by decide +kernel
theorem test_restore_key_preparation_times_out :
    after (exec (.restore (some snapCbcDec) [(7, 8), (9, 10)]) holding)
    (fun t => t.cr == 0x2C && t.ctl.cfg == none && t.ctl.outstanding == [0]
      && lastResult t == some (.err .keyPrepTimeout)) = true := by decide +kernel
/-- K10: the engine's turn after the write that starts the key preparation lets it complete. -/
theorem test_restore_key_preparation :
    after (exec (.restore (some snapCbcDec) [(7, 8), (9, 10)])
      { holding with sched := List.replicate 11 .host ++ [.engine] })
    (fun t => t.cr == 0x802C && t.decKeyReady && t.ctl.prepared && t.faults == [] && lastResult t == some .ok) = true := by
  decide +kernel
/-- R460, U4: a snapshot of an outstanding id that save() did not return is refused. -/
theorem test_restore_forged : after (exec (.restore (some snapGcm) [(7, 8), (9, 10)]) holding)
    (fun t => t == holding.finish .restore (.err .snapshotConsumed)) = true := by decide +kernel
theorem test_restore_of_no_snapshot :
    after (step { State.reset with prog := [.restoreHeld 0 []] })
      (fun t => t.prog == [] && lastResult t == some (.err .snapshotConsumed)) = true := by decide
/-- R464, U4: a record of words that lay out no snapshot is refused as no snapshot is. -/
theorem test_restore_of_a_partial_snapshot :
    after (step { State.reset with prog := [.record (.op 15 [0, 0x20, 1, 2, 3, 4, 7])] })
      (fun t => t.prog == [] && lastResult t == some (.err .snapshotConsumed)) = true := by decide +kernel
/-- R461, R464: a save of a GCM session after CR was written ECB holds ECB bits and context words; its record restores it. -/
theorem test_restore_record_of_ecb_bits_with_context :
    let snap : ContextSnapshot := { snapGcm with cfgBits := 0x20 }
    after (step { holding with snaps := [snap], prog := [.record (encode (.restore (some snap) [(7, 8), (9, 10)]))] })
      (fun t => t.cr == 0x8020 && t.csw == Vector.replicate 8 5 && t.csf == Vector.replicate 8 6
        && t.ctl.cfg == some { mode := .aesEcb, width := .w32, keySize := some .k128, dir := .enc }
        && lastResult t == some .ok) = true := by decide +kernel
/-- R158: a poll binds `ok`. -/
theorem test_poll_binds_ok :
    after (Host.Core.run Sys2Proof.core 2 { State.reset with prog := [.poll 0x04 0x1 0x1 3] })
        (fun t => t.reads == [3] && t.oks == [true]) = true
      ∧ after (Host.Core.run Sys2Proof.core 5 { State.reset with prog := [.poll 0x04 0x4 0x4 2] })
        (fun t => t.reads == [3, 3] && t.oks == [false]) = true := by decide
/-- R282, R504: a reset that lowers MISR[0] is one notification. -/
theorem test_reset_notifies : after (step { State.reset with imscr := 1, prog := [.blockReset] })
    (fun t => t.imscr == 0 && t.events == [.notify .input false]) = true := by decide
/-- R101: an access by address of any width but 4 is a BusError. -/
theorem test_width_by_address :
    (busRecordAt State.reset.params 0x50060000 .read 256).map decode = some (.ok (.rCr 255))
      ∧ (busRecordAt State.reset.params 0x50060000 .read 260).map decode = some (.ok (.rCr 255))
      ∧ (busRecordAt State.reset.params 0x50060000 .read 0).map decode = some (.ok (.rCr 255))
      ∧ (busRecordAt State.reset.params 0x50060000 .read 4).map decode = some (.ok (.rCr 4)) := by decide
-- H24 to H26
theorem test_setInputDMA : after (exec (.setInputDMA false) { State.reset with dmacr := 3 }) (·.dmacr == 2) = true := by
  decide
theorem test_setOutputDMA : after (exec (.setOutputDMA true) { State.reset with dmacr := 1 }) (·.dmacr == 3) = true := by
  decide
-- H27, H28
theorem test_setInterruptMask : after (exec (.setInterruptMask false true) State.reset) (·.imscr == 2) = true := by decide
theorem test_readInterruptStatus : after (exec .readInterruptStatus { State.reset with imscr := 3 })
    (lastResult · == some (.flags true false)) = true := by decide
-- R148 (d)
theorem test_op_reserved_refused : exec (.opReserved20 0) State.reset = .refused .reservedOperation
    ∧ exec (.opReserved24 7) State.reset = .refused .reservedOperation := ⟨rfl, rfl⟩

/-! ### Engine steps G1 to G11, and the end of a run -/

/-- The engine's turn. -/
def engineTurn (s : State) : Host.Outcome State Fault Refusal := step { s with sched := [.engine] }

theorem test_engine_waits_for_a_block : engineTurn { at_ 0x8020 with inQ := [1, 2, 3] } =
    .next { at_ 0x8020 with inQ := [1, 2, 3] } := rfl
theorem test_engine_stalls_without_room : engineTurn { at_ 0x8020 with inQ := [1, 2, 3, 4], outQ := [1, 2, 3, 4, 5] } =
    .next { at_ 0x8020 with inQ := [1, 2, 3, 4], outQ := [1, 2, 3, 4, 5] } := rfl
theorem test_engine_starts_des : after (engineTurn { at_ 0x8010 with inQ := [1, 2, 3] })
    (fun t => t.inQ == [3] && t.busy && t.pass == some (.data 2) && t.inflight == [1, 2]
      && t.events == [.passStart .data]) = true := by decide
theorem test_engine_key_not_prepared : after (engineTurn { at_ 0x8024 with inQ := [1, 2, 3, 4] })
    (fun t => t.faults == [.keyNotPrepared] && t.inQ.length == 4 && !t.busy) = true := by decide
theorem test_engine_completes_key_preparation : after (engineTurn (busyAt 0x8038 .keyPrep []))
    (fun t => t.decKeyReady && !t.busy && t.pass == none && t.events == [.passDone .keyPrep]) = true := by decide
/-- G4: a Header block leaves the output FIFO alone. -/
theorem test_engine_completes_header_block : after (engineTurn (busyAt 0x00098000 (.data 0) [1, 2, 3, 4]))
    (fun t => t.outQ == [] && !t.busy && t.events == [.passDone .data]) = true := by decide
theorem test_zero_input_tag_pass :
    after (exec (.wCr 4 0x000B8000) { at_ 0x000A8000 with params := { State.reset.params with finalGcm := .noWords } })
      (fun t => t.pass == some .tag && t.busy) = true
      ∧ after (exec (.wCr 4 0x000B8000) (at_ 0x000A8000)) (fun t => t.pass == none && !t.busy) = true
      ∧ after (exec (.wCr 4 0x00088000) (at_ 0x00080000)) (fun t => t.pass == some .init) = true := by decide
theorem test_swap_vectors :
    swapWord .w16 0x11223344 = 0x33441122 ∧ swapWord .w8 0x11223344 = 0x44332211
      ∧ swapWord .w1 0x11223344 = 0x22CC4488 := by decide +kernel
theorem test_dma_in_keeps_order : after (step { State.reset with dmacr := 1, src := [5, 6], inQ := [4], sched := [.dmaIn] })
    (fun t => t.inQ == [4, 5] && t.src == [6] && t.events == [.dmaIn 5]) = true := by decide
theorem test_dma_out_moves_oldest : after (step { State.reset with dmacr := 2, outQ := [5, 6], sched := [.dmaOut] })
    (fun t => t.snk == [5] && t.outQ == [6]) = true := by decide
theorem test_empty_run_ends : step State.reset = .fault .endOfRun := rfl

/-! ### Witnesses: a concrete case that meets the hypotheses of each statement that has any -/

/-- AES-128-ECB encrypt. -/
def ecb128 : EngineConfig := { mode := .aesEcb, width := .w32, keySize := some .k128, dir := .enc }

/-- AES-128-CBC decrypt, which needs a key preparation. -/
def cbcDec : EngineConfig := { mode := .aesCbc, width := .w32, keySize := some .k128, dir := .dec }

/-- An idle block with no pass in flight meets the invariant. -/
theorem idle_inv (s : State) (h : s.params.ok ∧ crLegal s.cr ∧ s.dmacr &&& ~~~lowTwoMask = 0
    ∧ s.imscr &&& ~~~lowTwoMask = 0 ∧ s.inQ.length ≤ s.params.inDepth ∧ s.outQ.length ≤ s.params.outDepth
    ∧ s.busy = false ∧ s.pass = none ∧ s.inflight = [] ∧ s.finalDone = false ∧ s.faults = []) : BlockInv s := by
  obtain ⟨h1, h2, h3, h4, h5, h6, h7, h8, h9, h10, h11⟩ := h
  exact ⟨h1, h2, h3, h4, h5, h6, by rw [h7, h8]; rfl, by rw [h7]; simp, by rw [passLegal, h8]; exact h9,
    by rw [h10]; simp, by rw [h11]; simp⟩

/-- A block with a legal pass in flight meets the invariant. -/
theorem pass_inv (s : State) (p : Pass) (h : s.params.ok ∧ crLegal s.cr ∧ s.dmacr &&& ~~~lowTwoMask = 0
    ∧ s.imscr &&& ~~~lowTwoMask = 0 ∧ s.inQ.length ≤ s.params.inDepth ∧ s.outQ.length ≤ s.params.outDepth
    ∧ s.busy = true ∧ s.pass = some p ∧ crypen s.cr = true ∧ s.finalDone = false ∧ s.faults = [])
    (hp : passLegal s) : BlockInv s := by
  obtain ⟨h1, h2, h3, h4, h5, h6, h7, h8, h9, h10, h11⟩ := h
  exact ⟨h1, h2, h3, h4, h5, h6, by rw [h7, h8]; rfl, fun _ => h9, hp, by rw [h10]; simp, by rw [h11]; simp⟩

/-- An AES-128-ECB session, disabled. -/
def ecbOff : State := session (at_ 0x20) .aesEcb (some .k128) .enc none

theorem ecbOff_inv : BlockInv ecbOff := idle_inv _ (by decide)
theorem ecbOff_inv' : StateInv ecbOff := ⟨ecbOff_inv, by decide, by decide, by decide⟩
theorem gcmPayload_inv : BlockInv gcmPayload := idle_inv _ (by decide)
theorem desBusy_inv : BlockInv desBusy := pass_inv _ (.data 2) (by decide) ⟨by decide, by decide, by decide⟩
theorem at_inv (cr : Word) (h : crLegal cr) : BlockInv (at_ cr) := 
  idle_inv _ ⟨(by decide : State.reset.params.ok), h, (by decide : (0 : Word) &&& ~~~lowTwoMask = 0),
    (by decide : (0 : Word) &&& ~~~lowTwoMask = 0), Nat.zero_le _, Nat.zero_le _, rfl, rfl, rfl, rfl, rfl⟩

theorem witness_DecodeOfEncode : (Instr.restore (some snapGcm) [(7, 8)]).wf = true ∧ (Instr.wKey 255 7 9).wf = true := by decide
theorem witness_EncodeOfDecodedBusRecord :
    decode (.bus 0x10A 4 7) = .ok (.busErrMisalignedEven 4 (.write 7) 2) ∧ decode (.bus 0x000 255 7) = .ok (.rCr 255) := by
  decide
theorem witness_ReservedOperations : 20 ≤ (20 : BitVec 5).toNat ∧ 20 ≤ (31 : BitVec 5).toNat := by decide
theorem witness_Configurations : ecb128.wf = true ∧ ¬reservedCr 0xFFF80248 ∧ ¬reservedCr 0x00000318 := by decide
theorem witness_StepRunsTheDecodedInstruction :
    ({ State.reset with prog := [.record (.bus 0x108 0 7)] } : State).prog = .record (.bus 0x108 0 7) :: []
      ∧ decode (.bus 0x108 0 7) = .ok (.wDin 4 7)
      ∧ ({ State.reset with sched := [.host, .engine] } : State).sched = .host :: [.engine] := by decide
theorem witness_PseudoInstructions :
    ({ State.reset with prog := [.setb 0 0x8000] } : State).prog = .setb 0 0x8000 :: []
      ∧ decode (.bus ((0 : BitVec 8).setWidth 9) 0 0) = .ok (.rCr 4)
      ∧ ({ State.reset with reads := [0x20] } : State).reads.getLast? = some 0x20
      ∧ decode (.bus (0x100 + (0 : BitVec 8).setWidth 9) 0 (0x20 ||| 0x8000)) = .ok (.wCr 4 0x8020)
      ∧ decode (.bus (0x100 + (0 : BitVec 8).setWidth 9) 0 (0x20 &&& ~~~(0x8000 : Word))) = .ok (.wCr 4 0x20)
      ∧ State.reset.srWord &&& 0x02 = 0x02 ∧ State.reset.srWord &&& 0x04 ≠ 0x04 := by decide
theorem witness_StoredRegistersReadBack : BlockInv desBusy ∧ desBusy.busy = true := ⟨desBusy_inv, by decide⟩
theorem witness_DmaEnableAndInterruptMaskWrites :
    (0xFFFFFFFC : Word).getLsbD 0 = false ∧ (0xFFFFFFFC : Word).getLsbD 1 = false ∧ State.reset.dmacr = 0xFFFFFFFC &&& 3
      ∧ State.reset.inQ.length < State.reset.params.inDepth ∧ State.reset.imscr.getLsbD 0 = false
      ∧ (1 : Word).getLsbD 0 = true := by decide
theorem witness_DinWrite :
    ({ State.reset with inQ := [1, 2, 3, 4, 5, 6, 7, 8] } : State).inQ.length = State.reset.params.inDepth
      ∧ ({ State.reset with inQ := [1, 2, 3, 4, 5, 6, 7] } : State).inQ.length ≠ State.reset.params.inDepth := by decide
theorem witness_DoutRead : State.reset.outQ = []
    ∧ ({ State.reset with outQ := [1, 2, 3, 4, 5, 6, 7, 8] } : State).outQ = 1 :: [2, 3, 4, 5, 6, 7, 8] := by decide
theorem witness_KeyIvAndContextRegisters : desBusy.busy = true ∧ State.reset.busy = false := by decide
theorem witness_BadTransactions :
    (0x101 : BitVec 9).extractLsb' 0 2 ≠ 0 ∧ (0x002 : BitVec 9).extractLsb' 0 2 ≠ 0
      ∧ 0x90 ≤ ((0x090 : BitVec 9).extractLsb' 0 8).toNat ∧ 0x90 ≤ ((0x1FC : BitVec 9).extractLsb' 0 8).toNat
      ∧ (2 : BitVec 8) ≠ 0 ∧ (2 : BitVec 8) ≠ 4 := by decide
theorem witness_RegisterTransactions : (Instr.wDin 4 7).isOp = false ∧ exec (.wDout 4 5) gcmPayload = .next gcmPayload :=
  ⟨by decide, rfl⟩
theorem witness_CrWriteFaults :
    reservedCr ((0x00080010 : Word) &&& 0x000B83FC) ∧ reservedCr ((0x00000320 : Word) &&& 0x000B83FC)
      ∧ ({ at_ 0x8010 with inQ := [1] } : State).activeNow ∧ ¬reservedCr ((0x00008018 : Word) &&& 0x000B83FC)
      ∧ (0x8010 : Word) &&& 0x000803FC ≠ ((0x00008018 : Word) &&& 0x000B83FC) &&& 0x000803FC
      ∧ ({ at_ 0x000A8000 with outQ := [1] } : State).activeNow ∧ ¬reservedCr ((0x000B8000 : Word) &&& 0x000B83FC)
      ∧ (0x000A8000 : Word) &&& 0x000803FC = ((0x000B8000 : Word) &&& 0x000B83FC) &&& 0x000803FC
      ∧ (0x000A8000 : Word) &&& 0x00030000 ≠ ((0x000B8000 : Word) &&& 0x000B83FC) &&& 0x00030000
      ∧ ¬reservedCr ((0x0000C010 : Word) &&& 0x000B83FC) ∧ (0x0000C010 : Word).getLsbD 14 = true ∧ desBusy.busy = true
      ∧ desBusy.cr &&& 0x000803FC = ((0x0000C010 : Word) &&& 0x000B83FC) &&& 0x000803FC
      ∧ desBusy.cr &&& 0x00030000 = ((0x0000C010 : Word) &&& 0x000B83FC) &&& 0x00030000 := by decide
theorem witness_CrWriteStoresAndFlushes :
    crWriteLegal 0xFFF04124 (at_ 0x20) ∧ (at_ 0x20).cr.extractLsb' 8 2 ≠ (0xFFF04124 : Word).extractLsb' 8 2
      ∧ crWriteLegal 0x00008010 desBusy ∧ desBusy.busy = true ∧ (0x00008010 : Word).getLsbD 15 = true := by decide
theorem witness_ClearingCrypenWhileBusyAborts : BlockInv desBusy ∧ desBusy.pass = some (.data 2)
    ∧ crWriteLegal 0x00000010 desBusy ∧ (0x00000010 : Word).getLsbD 15 = false := ⟨desBusy_inv, by decide⟩
/-- Each start condition, and a write that meets none. -/
theorem witness_CrWriteStartsZeroInputPasses :
    (BlockInv (at_ 0x38) ∧ (at_ 0x38).busy = false ∧ crWriteLegal 0x8038 (at_ 0x38)
        ∧ (crypen 0x8038 = true ∧ crMode 0x8038 = some .aesKeyPrep) ∧ ¬(crypen 0x38 = true))
      ∧ (BlockInv (at_ 0x00080000) ∧ crWriteLegal 0x00088000 (at_ 0x00080000)
        ∧ (crypen 0x00088000 = true ∧ crMode 0x00088000 = some .aesGcm ∧ phaseOf 0x00088000 = .init)
        ∧ ¬(crypen 0x00080000 = true))
      ∧ (crWriteLegal 0x000B8000 (at_ 0x000A8000) ∧ phaseOf 0x000B8000 = .final ∧ phaseOf 0x000A8000 ≠ .final)
      ∧ crWriteLegal 0x8020 (at_ 0x20) ∧ crMode 0x8020 = some .aesEcb :=
  ⟨⟨at_inv _ (by decide), by decide⟩, ⟨at_inv _ (by decide), by decide⟩, by decide, by decide⟩
theorem witness_RewritingCr : BlockInv desBusy := desBusy_inv
theorem witness_DispatcherShapeTable : crMode 0x8010 = some .desEcb ∧ crMode 0x000B8000 = some .aesGcm
    ∧ crMode 0x00088208 = some .aesCcm := by decide

/-- A state on the engine's turn. -/
def engineAt (s : State) : State := { s with sched := [.engine] }

theorem witness_EngineStartsABlock :
    (BlockInv (engineAt { at_ 0x8010 with inQ := [1, 2] }) ∧ (0x8010 : Word).getLsbD 15 = true
        ∧ shape State.reset.params 0x8010 false = some (.data, 2, 2) ∧ crMode 0x8010 = some .desEcb)
      ∧ (BlockInv (engineAt { at_ 0x8024 with inQ := [1, 2, 3, 4] }) ∧ crMode 0x8024 = some .aesEcb
        ∧ (0x8024 : Word).getLsbD 2 = true ∧ shape State.reset.params 0x8024 false = some (.data, 4, 4))
      ∧ shape State.reset.params 0x8038 false = none ∧ ([1, 2, 3] : List Word).length < 4
      ∧ State.reset.params.outDepth - ([1, 2, 3, 4, 5] : List Word).length < 4 :=
  ⟨⟨idle_inv _ (by decide), by decide⟩, ⟨idle_inv _ (by decide), by decide⟩, by decide⟩
theorem witness_EngineCompletesADataPass : BlockInv (engineAt desBusy) ∧ (engineAt desBusy).pass = some (.data 2)
    ∧ (engineAt desBusy).sched = .engine :: [] :=
  ⟨pass_inv _ (.data 2) (by decide) ⟨by decide, by decide, by decide⟩, by decide⟩
theorem witness_EngineCompletesTheOtherPasses :
    (BlockInv (engineAt (busyAt 0x8038 .keyPrep [])) ∧ (busyAt 0x8038 .keyPrep []).pass = some .keyPrep)
      ∧ (BlockInv (engineAt (busyAt 0x00088000 .init [])) ∧ (busyAt 0x00088000 .init []).pass = some .init)
      ∧ (BlockInv (engineAt (busyAt 0x000B8000 .tag [1, 2, 3, 4])) ∧ (busyAt 0x000B8000 .tag [1, 2, 3, 4]).pass = some .tag
        ∧ (busyAt 0x000B8000 .tag [1, 2, 3, 4]).outQ.length + 4 ≤ State.reset.params.outDepth)
      ∧ (BlockInv (engineAt { busyAt 0x000B8000 .tag [] with outQ := [1, 2, 3, 4, 5] })
        ∧ State.reset.params.outDepth < ([1, 2, 3, 4, 5] : List Word).length + 4) :=
  ⟨⟨pass_inv _ .keyPrep (by decide) ⟨by decide, by decide, by decide⟩, by decide⟩,
    ⟨pass_inv _ .init (by decide) ⟨by decide, by decide, by decide⟩, by decide⟩,
    ⟨pass_inv _ .tag (by decide) ⟨by decide, by decide, by decide, by decide⟩, by decide⟩,
    ⟨pass_inv _ .tag (by decide) ⟨by decide, by decide, by decide, by decide⟩, by decide⟩⟩
theorem witness_DmaAgents :
    (at_ 0).src = [] ∧ ({ at_ 0 with src := [5], dmacr := 1, sched := [.dmaIn] } : State).src = 5 :: []
      ∧ (1 : Word).getLsbD 0 = true ∧ (2 : Word).getLsbD 1 = true
      ∧ ({ at_ 0 with outQ := [5], sched := [.dmaOut] } : State).outQ = 5 :: [] := by decide
/-- Law (d): AES-128 does not use K[0] to K[3]; a DES mode does not read the phase field. -/
theorem witness_PassesDepend :
    crMode 0x8020 = some .aesEcb
      ∧ (∀ i : Fin 8, keyUsed .aesEcb (kszOf .aesEcb 0x8020) i.val = true →
          (#v[1, 1, 1, 1, 5, 6, 7, 8] : Vector Word 8)[i.val] = (#v[2, 2, 2, 2, 5, 6, 7, 8] : Vector Word 8)[i.val])
      ∧ crMode 0x00038010 = some .desEcb
      ∧ (0x00038010 : Word) &&& ~~~(0x00030000 : Word) = 0x00008010 &&& ~~~(0x00030000 : Word) := by decide
theorem witness_AgentsLeaveControlAndKeyRegisters : BlockInv (engineAt { at_ 0x8010 with inQ := [1, 2] })
    ∧ (engineAt { at_ 0x8010 with inQ := [1, 2] }).sched = .engine :: [] ∧ Turn.engine ≠ .host :=
  ⟨idle_inv _ (by decide), by decide⟩
theorem witness_QuietOutlivesOtherAgents : BlockInv { at_ 0x20 with sched := [.dmaIn], dmacr := 1, src := [5] }
    ∧ ({ at_ 0x20 with sched := [.dmaIn], dmacr := 1, src := [5] } : State).quietNow = true
    ∧ BlockInv (engineAt (at_ 0x8010)) ∧ (engineAt (at_ 0x8010)).quietNow = true :=
  ⟨idle_inv _ (by decide), by decide, idle_inv _ (by decide), by decide⟩
/-- A fault, an abort and a write that leaves the pass alone. -/
theorem witness_ArgumentsOfAPassAreStable : BlockInv desBusy ∧ desBusy.pass = some (.data 2)
    ∧ exec (.wKey 4 2 1) desBusy = .next (desBusy.raiseFault .keyWriteWhileBusy)
    ∧ after (exec (.wCr 4 0x10) desBusy) (fun t => t.pass == none) = true
    ∧ after (exec (.wDin 4 7) desBusy) (fun t => t.pass == some (.data 2)) = true :=
  ⟨desBusy_inv, by decide, rfl, by decide, by decide⟩
theorem witness_ResetLeaves : ({ desBusy with prog := [.blockReset] } : State).prog = .blockReset :: []
    ∧ desBusy.sched = [] := by decide

theorem engineAt_desBusy_ids : IdsInv (engineAt desBusy) := ⟨by decide, by decide, by decide⟩

theorem witness_EveryStepKeeps : StateInv (engineAt { at_ 0x8010 with inQ := [1, 2] })
    ∧ after (step (engineAt { at_ 0x8010 with inQ := [1, 2] })) (fun t => t.busy) = true :=
  ⟨⟨idle_inv _ (by decide), ⟨by decide, by decide, by decide⟩⟩, by decide⟩
theorem witness_FaultsAndHistory :
    after (step { State.reset with prog := [.record (.bus 0x00C 0 0)] }) (fun t => t.faults == [.outFifoUnderrun]) = true := by
  decide
theorem witness_ControllerRecordStaysTrue :
    (Instr.configure ecb128).isOp = true ∧ (Instr.configure ecb128).wf = true ∧ StateInv ecbOff ∧ CtlInv ecbOff
      ∧ after (exec (.configure ecb128) ecbOff) (fun t => t.events.getLast? == some (.hostResult .configure .ok)) = true :=
  ⟨by decide, by decide, ecbOff_inv',
    ⟨by intro cfg h; cases h; decide, by decide, by decide⟩, by decide⟩
theorem witness_ControllerWritesNeverFault : Instr.isBusy.isOp = true ∧ Instr.isBusy.wf = true ∧ StateInv ecbOff
    ∧ after (exec .isBusy ecbOff) (fun _ => true) = true := ⟨by decide, by decide, ecbOff_inv', by decide⟩
theorem witness_EveryOperationReturns : Instr.save.wf = true ∧ Instr.save.opName = some .save := by decide
theorem witness_FailedChecksWriteNothing : BlockInv desBusy ∧ (Instr.flushFIFOs).wf = true
    ∧ Instr.flushFIFOs.opName = some .flushFIFOs
    ∧ exec .flushFIFOs desBusy = .next (desBusy.finish .flushFIFOs (.err .busyFlush))
    ∧ CtlError.busyFlush ≠ .drainTimeout ∧ CtlError.busyFlush ≠ .keyPrepTimeout :=
  ⟨desBusy_inv, by decide, by decide, rfl, by decide, by decide⟩
theorem witness_ChecksWithoutTransactions :
    State.reset.ctl.cfg = none ∧ ecbOff.ctl.cfg = some ecb128 ∧ ([(1, 2)] : List WordPair).length ≠ keyPairs ecb128
      ∧ ecb128.mode ≠ .aesGcm ∧ ecb128.mode ≠ .aesCcm
      ∧ (session (at_ 0x00080000) .aesGcm (some .k128) .enc none).ctl.tracker = none
      ∧ (session (at_ 0x00080000) .aesGcm (some .k128) .enc (some .final)).ctl.tracker = some .final
      ∧ (some Phase.init, Phase.payload) ∉ [(none, Phase.init), (some .init, .header), (some .header, .payload),
          (some .payload, .final), (some .final, .init)]
      ∧ snapGcm.id ∉ State.reset.ctl.outstanding ∧ snapGcm ∉ holding.snaps
      ∧ snapCbcDec.id ∈ holding.ctl.outstanding ∧ snapCbcDec ∈ holding.snaps
      ∧ (decodeConfig snapGcm.cfgBits).isSome = true
      ∧ ({ Controller.reset with outstanding := [0] } : Controller).outstanding = [snapGcm.id] := by decide
/-- Quiet and not quiet; key preparation missing; busy; enabled; DMA attached; FIFOs full and empty; not drained. -/
theorem witness_ChecksOverValuesRead :
    State.reset.sched = [] ∧ ({ at_ 0x8010 with inQ := [1] } : State).quietNow = false ∧ ecbOff.quietNow = true
      ∧ needsKeyPrep cbcDec = true ∧ ¬(ecbOff.ctl.prepared = true ∧ ecbOff.cr.extractLsb' 8 2 = ksCode cbcDec)
      ∧ desBusy.ctl.cfg.isSome = true ∧ desBusy.busy = true ∧ desBusy.sched = []
      ∧ ivRegs .aesCbc ≠ [] ∧ ivRegs .desCbc ≠ [] ∧ (at_ 0x8010).cr.getLsbD 15 = true ∧ (at_ 0x8010).busy = false
      ∧ ({ at_ 0 with dmacr := 3 } : State).dmacr.getLsbD 0 = true ∧ ({ at_ 0 with dmacr := 3 } : State).dmacr.getLsbD 1 = true
      ∧ State.reset.params.inDepth ≤ ([1, 2, 3, 4, 5, 6, 7, 8] : List Word).length
      ∧ phaseAllowed (some .payload) .final = true ∧ ({ gcmPayload with outQ := [1] } : State).quietNow = false
      ∧ ¬(({ at_ 0 with inQ := [1] } : State).drained = true ∧ ({ at_ 0 with inQ := [1] } : State).dmacr &&& 3 = 0) := by
  decide
theorem witness_ConfigureOpensTheSession :
    (BlockInv ecbOff ∧ ecb128.wf = true ∧ ecbOff.quietNow = true ∧ needsKeyPrep ecb128 = false)
      ∧ (cbcDec.wf = true ∧ needsKeyPrep cbcDec = true
        ∧ ({ at_ 0x38 with ctl := { Controller.reset with prepared := true } } : State).ctl.prepared = true
        ∧ (at_ 0x38).cr.extractLsb' 8 2 = ksCode cbcDec) := ⟨⟨ecbOff_inv, by decide⟩, by decide⟩
theorem witness_ConfiguringTwice : BlockInv ecbOff ∧ ecb128.wf = true ∧ ecbOff.sched = [] ∧ ecbOff.cr.getLsbD 15 = false :=
  ⟨ecbOff_inv, by decide⟩
theorem witness_LoadKey :
    (∀ k : KeySize, (⟨.aesEcb, .w32, some k, .enc⟩ : EngineConfig).wf = true)
      ∧ (⟨.desCbc, .w32, none, .enc⟩ : EngineConfig).wf = true ∧ (⟨.tdesEcb, .w8, none, .dec⟩ : EngineConfig).wf = true
      ∧ BlockInv ecbOff ∧ ecbOff.ctl.cfg = some ecb128
      ∧ ([(1, 2), (3, 4)] : List WordPair).length = keyPairs ecb128 ∧ ecbOff.quietNow = true :=
  ⟨by intro k; cases k <;> rfl, by decide, by decide, ecbOff_inv, by decide⟩
theorem witness_LoadIv :
    ecbOff.ctl.cfg = some ecb128
      ∧ (BlockInv (session (at_ 0x18) .desCbc none .enc none) ∧ (session (at_ 0x18) .desCbc none .enc none).quietNow = true)
      ∧ BlockInv gcmPayload ∧ gcmPayload.quietNow = true :=
  ⟨by decide, ⟨idle_inv _ (by decide), by decide⟩, gcmPayload_inv, by decide⟩
theorem witness_Flush : BlockInv ecbOff ∧ ecbOff.cr.getLsbD 15 = false := ⟨ecbOff_inv, by decide⟩
theorem witness_Enable :
    (BlockInv ecbOff ∧ ecbOff.ctl.cfg = some ecb128 ∧ ecb128.mode ≠ .aesGcm ∧ ecb128.mode ≠ .aesCcm)
      ∧ BlockInv (session (at_ 0x38) .aesKeyPrep (some .k128) .enc none) ∧ gcmPayload.ctl.tracker ≠ none :=
  ⟨⟨ecbOff_inv, by decide⟩, idle_inv _ (by decide), by decide⟩
theorem witness_Disable : BlockInv desBusy ∧ BlockInv State.reset := ⟨desBusy_inv, idle_inv _ (by decide)⟩
theorem witness_FlowPredicatesAndToggles : BlockInv desBusy ∧ BlockInv gcmPayload := ⟨desBusy_inv, gcmPayload_inv⟩
theorem witness_PushAndPop :
    (BlockInv (at_ 0x8010) ∧ (at_ 0x8010).dmacr.getLsbD 0 = false ∧ (at_ 0x8010).inQ.length < (at_ 0x8010).params.inDepth)
      ∧ (BlockInv { at_ 0x8010 with outQ := [1, 2, 3, 4, 5, 6, 7, 8] }
        ∧ ({ at_ 0x8010 with outQ := [1, 2, 3, 4, 5, 6, 7, 8] } : State).outQ = 1 :: [2, 3, 4, 5, 6, 7, 8])
      ∧ (at_ 0x8010).sched = [] ∧ (at_ 0x8010).dmacr.getLsbD 1 = false :=
  ⟨⟨idle_inv _ (by decide), by decide⟩, ⟨idle_inv _ (by decide), by decide⟩, by decide⟩
theorem witness_SetPhase : BlockInv gcmPayload ∧ gcmPayload.ctl.cfg.isSome = true ∧ gcmPayload.quietNow = true
    ∧ (gcmPayload.ctl.tracker, Phase.final) ∈ [(none, Phase.init), (some .init, .header), (some .header, .payload),
      (some .payload, .final), (some .final, .init)] := ⟨gcmPayload_inv, by decide⟩
/-- Drained with the input side detached; and neither drained nor able to step. -/
theorem witness_Save :
    (BlockInv gcmPayload ∧ gcmPayload.ctl.tracker ≠ some .final ∧ gcmPayload.drained = true
        ∧ gcmPayload.dmacr.getLsbD 0 = false)
      ∧ BlockInv { session (at_ 0x8010) .desEcb none .enc none with inQ := [1] }
      ∧ ({ session (at_ 0x8010) .desEcb none .enc none with inQ := [1] } : State).drained = false
      ∧ ({ session (at_ 0x8010) .desEcb none .enc none with inQ := [1] } : State).settled :=
  ⟨⟨gcmPayload_inv, by decide⟩, idle_inv _ (by decide), by decide, rfl, rfl, rfl⟩

/-- The bookkeeping of snapshots holds where it decides to. -/
theorem ids_inv (s : State) (h : s.ctl.outstanding.Pairwise (· < ·) ∧ (∀ n ∈ s.ctl.outstanding, n < s.ctl.nextId)
    ∧ ∀ snap ∈ s.snaps,
      snap.id < s.ctl.nextId ∧ snap.cfgBits &&& ~~~snapMask = 0 ∧ reservedConfig snap.cfgBits = false) : IdsInv s :=
  ⟨h.1, h.2.1, h.2.2⟩

/-- A snapshot with context words, and one without. -/
theorem witness_Restore :
    (StateInv { holding with snaps := [snapGcm] } ∧ snapGcm.ctx.isSome = true
      ∧ snapGcm.id ∈ holding.ctl.outstanding ∧ snapGcm ∈ ({ holding with snaps := [snapGcm] } : State).snaps
      ∧ decodeConfig snapGcm.cfgBits = some { mode := .aesGcm, width := .w32, keySize := some .k128, dir := .enc }
      ∧ holding.drained = true ∧ holding.dmacr &&& 3 = 0
      ∧ needsKeyPrep { mode := .aesGcm, width := .w32, keySize := some .k128, dir := .enc } = false
      ∧ keyPairs { mode := .aesGcm, width := .w32, keySize := some .k128, dir := .enc }
          = ([(7, 8), (9, 10)] : List WordPair).length)
    ∧ (StateInv { holding with snaps := [{ snapGcm with cfgBits := 0x20, ctx := none }] }
      ∧ decodeConfig 0x20 = some ecb128 ∧ needsKeyPrep ecb128 = false
      ∧ keyPairs ecb128 = ([(7, 8), (9, 10)] : List WordPair).length) :=
  ⟨⟨⟨idle_inv _ (by decide), ids_inv _ (by decide)⟩, by decide⟩, ⟨idle_inv _ (by decide), ids_inv _ (by decide)⟩, by decide⟩
/-- Without context words (14 host turns before the first read) and with them (30). -/
theorem witness_RestoreOfADecryptSession :
    (StateInv holding ∧ snapCbcDec.ctx.isSome = false
      ∧ snapCbcDec.id ∈ holding.ctl.outstanding ∧ snapCbcDec ∈ holding.snaps ∧ decodeConfig snapCbcDec.cfgBits = some cbcDec
      ∧ ([(7, 8), (9, 10)] : List WordPair).length = keyPairs cbcDec ∧ holding.drained = true ∧ holding.dmacr &&& 3 = 0
      ∧ needsKeyPrep cbcDec = true ∧ holding.sched = []
      ∧ (3 < holding.params.drainBudget ∧ holding.params.drainBudget ≤ 4)
      ∧ ({ holding with sched := List.replicate 14 .host ++ [.engine] } : State).sched
          = List.replicate (2 * ([(7, 8), (9, 10)] : List WordPair).length + 7 + 0 + 3) .host ++ .engine :: [])
    ∧ (StateInv { holding with snaps := [{ snapCbcDec with ctx := snapGcm.ctx }] } ∧ snapGcm.ctx.isSome = true
      ∧ ({ holding with sched := List.replicate 30 .host ++ [.engine] } : State).sched
          = List.replicate (2 * ([(7, 8), (9, 10)] : List WordPair).length + 7 + 16 + 3) .host ++ .engine :: []) :=
  ⟨⟨⟨idle_inv _ (by decide), ids_inv _ (by decide)⟩, by decide⟩, ⟨idle_inv _ (by decide), ids_inv _ (by decide)⟩, by decide⟩

/-- What save leaves of `gcmPayload`, before its result. -/
def gcmSaved : State :=
  { gcmPayload with
    cr := 0x000A0000, ctl := { Controller.reset with outstanding := [0], nextId := 1 }
    snaps := [{ id := 0, cfgBits := 0x000A0000, iv := Vector.replicate 4 0,
                ctx := some { working := Vector.replicate 8 0, final := Vector.replicate 8 0 } }] }

theorem witness_SaveThenRestore :
    BlockInv gcmPayload ∧ crMode gcmPayload.cr = some .aesGcm ∧ phaseOf gcmPayload.cr = .payload
      ∧ exec .save gcmPayload = .next (gcmSaved.finish .save (.okSnapshot
          { id := 0, cfgBits := 0x000A0000, iv := Vector.replicate 4 0,
            ctx := some { working := Vector.replicate 8 0, final := Vector.replicate 8 0 } }))
      ∧ BlockInv gcmSaved ∧ 0 ∈ gcmSaved.ctl.outstanding
      ∧ ({ id := 0, cfgBits := 0x000A0000, iv := Vector.replicate 4 0,
           ctx := some { working := Vector.replicate 8 0, final := Vector.replicate 8 0 } } : ContextSnapshot) ∈ gcmSaved.snaps
      ∧ gcmSaved.drained = true ∧ gcmSaved.dmacr &&& 3 = 0
      ∧ ([(0, 0), (0, 0)] : List WordPair).length = (keySpan .aesGcm (kszOf .aesGcm gcmPayload.cr)).2
      ∧ gcmSaved.key = Vector.replicate 8 0 :=
  ⟨gcmPayload_inv, by decide, by decide, congrArg Host.Outcome.next (by decide +kernel), idle_inv _ (by decide), by decide⟩

end Sys2Proof.Tests
end

section
/-! What CR's fields read: each lies inside one of the masks of R32, so words that agree under the masks configure alike. -/

namespace Sys2Proof.Machine

/-- A field that lies inside a mask does not see the mask. -/
theorem extractLsb'_and_of_allOnes {w m : Word} {i n : Nat} (hm : m.extractLsb' i n = BitVec.allOnes n) :
    (w &&& m).extractLsb' i n = w.extractLsb' i n := by
  rw [BitVec.extractLsb'_and, hm, BitVec.and_allOnes]

theorem modeField_and {m : Word} (h19 : m.extractLsb' 19 1 = BitVec.allOnes 1)
    (h3 : m.extractLsb' 3 3 = BitVec.allOnes 3) (w : Word) : modeField (w &&& m) = modeField w := by
  unfold modeField
  rw [extractLsb'_and_of_allOnes h19, extractLsb'_and_of_allOnes h3]

/-- Two CR words that name the same configuration and phase: what an active block lets no CR write change (R201). -/
structure SameConfig (a b : Word) : Prop where
  cfg : a &&& cfgMask = b &&& cfgMask
  phase : a &&& phMask = b &&& phMask

namespace SameConfig

variable {a b : Word} (h : SameConfig a b)
include h

theorem crMode_eq : crMode a = crMode b := by
  have hm := modeField_and (m := cfgMask) rfl rfl
  unfold crMode
  rw [← hm a, h.cfg, hm b]

theorem crDir_eq : crDir a = crDir b := by
  have hd : ∀ w : Word, (w &&& cfgMask).getLsbD 2 = w.getLsbD 2 := fun w => by
    rw [BitVec.getLsbD_and, show cfgMask.getLsbD 2 = true from rfl, Bool.and_true]
  unfold crDir
  rw [← hd a, h.cfg, hd b]

theorem ksField_eq : ksField a = ksField b := by
  have hk : ∀ w : Word, ksField (w &&& cfgMask) = ksField w := fun w => extractLsb'_and_of_allOnes rfl
  rw [← hk a, h.cfg, hk b]

theorem phaseField_eq : phaseField a = phaseField b := by
  have hp : ∀ w : Word, phaseField (w &&& phMask) = phaseField w := fun w => extractLsb'_and_of_allOnes rfl
  rw [← hp a, h.phase, hp b]

theorem phaseOf_eq : phaseOf a = phaseOf b := congrArg Phase.ofCode h.phaseField_eq

/-- The dispatcher of R271 reads no other field of CR. -/
theorem shape_eq (p : Config.Params) (finalDone : Bool) : shape p a finalDone = shape p b finalDone := by
  unfold shape shape.aeadShape
  rw [h.crMode_eq, h.phaseOf_eq]

end SameConfig

/-- A snapshot's configuration bits are reserved exactly where CR's are (R67, R148). -/
theorem reservedConfig_snapMask (cr : Word) : reservedConfig (cr &&& snapMask) = reservedConfig cr := by
  have hk : ksField (cr &&& snapMask) = ksField cr := extractLsb'_and_of_allOnes rfl
  unfold reservedConfig crMode
  rw [modeField_and rfl rfl, hk]

/-- The bits outside a mask are 0 in a word cut to it. -/
theorem and_mask_and_not (w m : Word) : w &&& m &&& ~~~m = 0 := by
  rw [BitVec.and_assoc, BitVec.and_not_self]
  exact BitVec.and_zero

/-- What a CR write that passes the checks stores is legal (R39, R201). -/
theorem crLegal_crStored {v : Word} (h : ¬reservedCr (v &&& 0x000B83FC)) : crLegal (crStored v) := by
  rw [crStored_eq]
  refine ⟨and_mask_and_not v _, ?_⟩
  rw [reservedCr_iff] at h
  exact Bool.not_eq_true _ ▸ h

end Sys2Proof.Machine
end

section
/-! The block's invariant under each update of the state: the fields it does not read, the FIFOs, the idle block, the start
of a pass, and a CR write during one. -/

namespace Sys2Proof.Machine

variable {s t : State}

/-! ### What the pass in flight asks for -/

/-- The engine is idle and holds no input words (R61). -/
structure State.Idle (s : State) : Prop where
  busy : s.busy = false
  pass : s.pass = none
  inflight : s.inflight = []

theorem passLegal_none (h : s.pass = none) : passLegal s ↔ s.inflight = [] := by
  unfold passLegal
  rw [h]

theorem passLegal_data {bo : Nat} (h : s.pass = some (.data bo)) :
    passLegal s ↔ shape s.params s.cr s.finalDone = some (.data, s.inflight.length, bo)
      ∧ s.outQ.length + bo ≤ s.params.outDepth ∧ keyMissing s = false := by
  unfold passLegal
  rw [h]

theorem passLegal_keyPrep (h : s.pass = some .keyPrep) :
    passLegal s ↔ crMode s.cr = some .aesKeyPrep ∧ s.inflight = [] ∧ s.decKeyReady = false := by
  unfold passLegal
  rw [h]

theorem passLegal_init (h : s.pass = some .init) :
    passLegal s ↔ (crMode s.cr).any Mode.isAead = true ∧ phaseOf s.cr = .init ∧ s.inflight = [] := by
  unfold passLegal
  rw [h]

theorem passLegal_tag (h : s.pass = some .tag) :
    passLegal s ↔ (crMode s.cr).any Mode.isAead = true ∧ phaseOf s.cr = .final ∧ s.finalDone = false
      ∧ (s.inflight.length = 0 ∨ s.inflight.length = 4) := by
  unfold passLegal
  rw [h]

/-- A legal pass stays legal while the output FIFO has no less room. -/
theorem passLegal_fifos (q o : List Word) (ho : o.length ≤ s.outQ.length) (h : passLegal s) :
    passLegal { s with inQ := q, outQ := o } := by
  unfold passLegal at h ⊢
  revert h
  cases s.pass with
  | none => exact id
  | some p =>
    cases p with
    | data bo =>
      rintro ⟨hs, hroom, hk⟩
      exact ⟨hs, by dsimp only; omega, hk⟩
    | keyPrep | init | tag => exact id

/-- A legal pass stays legal under a CR value of the same configuration and phase. -/
theorem passLegal_sameConfig {c : Word} (hc : SameConfig s.cr c) (h : passLegal s) : passLegal { s with cr := c } := by
  unfold passLegal keyMissing at h ⊢
  dsimp only
  rw [← hc.crMode_eq, ← hc.crDir_eq, ← hc.phaseOf_eq, ← hc.shape_eq]
  exact h

/-- The AEAD rows of R271 start a data pass, or a tag pass over the one block of the Final phase. -/
theorem aeadShape_cases {p : Config.Params} {cr : Word} {finalDone : Bool} {m : Mode} {kind : PassKind} {bi bo : Nat}
    (h : shape.aeadShape p cr finalDone m = some (kind, bi, bo)) :
    kind = .data ∨ kind = .tag ∧ bi = 4 ∧ phaseOf cr = .final ∧ finalDone = false := by
  unfold shape.aeadShape at h
  split at h
  · cases h
  · cases h; exact .inl rfl
  · cases h; exact .inl rfl
  · next hfinal =>
    split at h
    · next hc =>
      cases h
      simp only [Bool.and_eq_true, Bool.not_eq_true'] at hc
      exact .inr ⟨rfl, rfl, hfinal, hc.1⟩
    · cases h

/-- The dispatcher starts a data pass in every mode, and a tag pass only in an AEAD mode (R271). -/
theorem shape_cases {p : Config.Params} {cr : Word} {finalDone : Bool} {kind : PassKind} {bi bo : Nat}
    (h : shape p cr finalDone = some (kind, bi, bo)) :
    kind = .data
      ∨ (kind = .tag ∧ bi = 4 ∧ phaseOf cr = .final ∧ finalDone = false) ∧ (crMode cr).any Mode.isAead = true := by
  unfold shape at h
  split at h
  case h_10 hm => exact (aeadShape_cases h).imp_right fun htag => ⟨htag, by rw [hm]; rfl⟩
  case h_11 hm => exact (aeadShape_cases h).imp_right fun htag => ⟨htag, by rw [hm]; rfl⟩
  all_goals cases h
  all_goals exact .inl rfl

namespace BlockInv

/-- With BUSY 0 no pass is in flight and no input word is held. -/
theorem idle (h : BlockInv s) (hb : s.busy = false) : s.Idle := by
  have hp : s.pass = none := by rw [← Option.isNone_iff_eq_none, ← Option.not_isSome, ← h.busy_iff, hb]; rfl
  exact ⟨hb, hp, (passLegal_none hp).1 h.pass_legal⟩

/-- With BUSY 1 some pass is in flight. -/
theorem pass_of_busy (h : BlockInv s) (hb : s.busy = true) : ∃ p, s.pass = some p :=
  Option.isSome_iff_exists.1 (h.busy_iff ▸ hb)

/-! ### One rule for each kind of update -/

/-- The fields the invariant does not read may change. -/
theorem of_frame (h : BlockInv s) (rest : t = { s with
    key := t.key, iv := t.iv, csw := t.csw, csf := t.csf, events := t.events, ctl := t.ctl, src := t.src, snk := t.snk
    prog := t.prog, reads := t.reads, oks := t.oks, snaps := t.snaps, sched := t.sched, draws := t.draws }) : BlockInv t := by
  rw [rest]
  exact ⟨h.params_ok, h.cr_legal, h.dmacr_legal, h.imscr_legal, h.inQ_bound, h.outQ_bound, h.busy_iff, h.busy_enabled,
    h.pass_legal, h.final_phase, h.faults_sorted⟩

theorem notifyCheck (h : BlockInv t) (before : State) : BlockInv (notifyCheck before t) := by
  rw [notifyCheck_eq]
  exact h.of_frame rfl

theorem raiseFault (h : BlockInv s) (k : FaultKind) : BlockInv (s.raiseFault k) :=
  { h with faults_sorted := insertFault_sorted h.faults_sorted }

theorem dmacr (h : BlockInv s) (v : Word) : BlockInv { s with dmacr := v &&& lowTwoMask } :=
  { h with dmacr_legal := and_mask_and_not v _ }

theorem imscr (h : BlockInv s) (v : Word) : BlockInv { s with imscr := v &&& lowTwoMask } :=
  { h with imscr_legal := and_mask_and_not v _ }

/-- The input FIFO may change within its bound, and the output FIFO may lose words. -/
theorem fifos (h : BlockInv s) {q o : List Word} (hq : q.length ≤ s.params.inDepth) (ho : o.length ≤ s.outQ.length) :
    BlockInv { s with inQ := q, outQ := o } :=
  { h with
    inQ_bound := hq
    outQ_bound := ho.trans h.outQ_bound
    pass_legal := passLegal_fifos q o ho h.pass_legal }

/-- An idle block: its CR, its FIFOs and the two hidden bits may take any legal value (R39, R58, R59, R63). -/
theorem of_idle (h : BlockInv s) (rest : t = { s with
      cr := t.cr, key := t.key, iv := t.iv, csw := t.csw, csf := t.csf, inQ := t.inQ, outQ := t.outQ, busy := t.busy
      pass := t.pass, inflight := t.inflight, decKeyReady := t.decKeyReady, finalDone := t.finalDone, events := t.events
      draws := t.draws })
    (idle : t.Idle) (cr : crLegal t.cr) (inQ : t.inQ.length ≤ s.params.inDepth) (outQ : t.outQ.length ≤ s.params.outDepth)
    (final : t.finalDone = true → phaseOf t.cr = .final) : BlockInv t := by
  have hparams : t.params = s.params := by rw [rest]
  have hdmacr : t.dmacr = s.dmacr := by rw [rest]
  have himscr : t.imscr = s.imscr := by rw [rest]
  have hfaults : t.faults = s.faults := by rw [rest]
  exact
    { params_ok := hparams ▸ h.params_ok
      cr_legal := cr
      dmacr_legal := hdmacr ▸ h.dmacr_legal
      imscr_legal := himscr ▸ h.imscr_legal
      inQ_bound := hparams ▸ inQ
      outQ_bound := hparams ▸ outQ
      busy_iff := by rw [idle.busy, idle.pass]; rfl
      busy_enabled := fun hb => by rw [idle.busy] at hb; cases hb
      pass_legal := (passLegal_none idle.pass).2 idle.inflight
      final_phase := final
      faults_sorted := hfaults ▸ h.faults_sorted }

/-- An enabled block may start a pass that is legal once it runs. -/
theorem startPass (h : BlockInv s) {kind : PassKind} {p : Pass} {ws : List Word} (hen : crypen s.cr = true)
    (hp : passLegal (s.startPass kind p ws)) : BlockInv (s.startPass kind p ws) :=
  { h with
    busy_iff := rfl
    busy_enabled := fun _ => hen
    pass_legal := hp }

/-- What the end of a pass leaves: an idle block, with words in the output FIFO that had room for them (R273 to R276). -/
theorem endPass (h : BlockInv s) (kind : PassKind) (iv : Vector Word 4) (csw csf : Vector Word 8) {o : List Word}
    {ready done : Bool} (ho : o.length ≤ s.params.outDepth) (hf : done = true → phaseOf s.cr = .final) :
    BlockInv ({ s with
      outQ := o, iv := iv, csw := csw, csf := csf, decKeyReady := ready, finalDone := done }.endPass kind) :=
  h.of_idle rfl ⟨rfl, rfl, rfl⟩ h.cr_legal h.inQ_bound ho hf

/-- R277: an aborted pass leaves an idle block. -/
theorem abortPass (h : BlockInv s) {p : Pass} (hp : s.pass = some p) : BlockInv (abortPass s) ∧ (Machine.abortPass s).Idle := by
  by_cases hk : p = .keyPrep
  · rw [abortPass_keyPrep s (hk ▸ hp)]
    exact ⟨h.of_idle rfl ⟨rfl, rfl, rfl⟩ h.cr_legal h.inQ_bound h.outQ_bound h.final_phase, rfl, rfl, rfl⟩
  · rw [abortPass_other s hp hk]
    exact ⟨h.of_idle rfl ⟨rfl, rfl, rfl⟩ h.cr_legal h.inQ_bound h.outQ_bound h.final_phase, rfl, rfl, rfl⟩

end BlockInv

end Sys2Proof.Machine
end

section
/-! The block's invariant is kept by each agent's turn, by the CR write and by every transaction (R39, R58 to R63, R270). -/

namespace Sys2Proof.Machine

variable {s t : State}

/-! ### The engine and the DMA agents -/

/-- What an idle turn and every enabled step of another agent leave true is true after any turn. -/
theorem agentStep_of_enabled {P : State → Prop} (h : P s) (hengine : ∀ t, engineStep s = some t → P t)
    (hin : ∀ t, dmaInStep s = some t → P t) (hout : ∀ t, dmaOutStep s = some t → P t) (a : Turn) : P (agentStep a s) := by
  have enabled : ∀ o : Option State, (∀ t, o = some t → P t) → P (o.getD s) := by
    intro o ho
    cases o with
    | none => exact h
    | some t => exact ho t rfl
  cases a with
  | host => exact h
  | engine => exact enabled _ hengine
  | dmaIn => exact enabled _ hin
  | dmaOut => exact enabled _ hout

/-- What a start consumes makes a legal pass (R272). -/
theorem passLegal_started {kind : PassKind} {bi bo : Nat} (hs : shape s.params s.cr s.finalDone = some (kind, bi, bo))
    (hi : bi ≤ s.inQ.length) (ho : s.outQ.length + bo ≤ s.params.outDepth) (hk : keyMissing s = false) :
    passLegal ({ s with inQ := s.inQ.drop bi }.startPass kind (passOf kind bo) (s.inQ.take bi)) := by
  have hlen : (s.inQ.take bi).length = bi := List.length_take_of_le hi
  obtain rfl | ⟨⟨rfl, rfl, hfinal, hdone⟩, haead⟩ := shape_cases hs
  · exact (passLegal_data rfl).2 ⟨hs.trans (by rw [← hlen]; simp), ho, hk⟩
  · exact (passLegal_tag rfl).2 ⟨haead, hfinal, hdone, .inr hlen⟩

namespace BlockInv

theorem startBlock (h : BlockInv s) (e : startBlock s = some t) : BlockInv t := by
  obtain ⟨kind, bi, bo, hs, hen, hidle, hi, ho, ⟨_, rfl⟩ | ⟨hk, rfl⟩⟩ := startBlock_some s e
  · exact h.raiseFault _
  · have hq : (s.inQ.drop bi).length ≤ s.params.inDepth := by
      rw [List.length_drop]
      exact (Nat.sub_le _ _).trans h.inQ_bound
    exact ((h.fifos hq le_rfl).startPass hen (passLegal_started hs hi ho hk)).notifyCheck s

theorem completeData (h : BlockInv s) {bo : Nat} (hp : s.pass = some (.data bo)) (e : completeData bo s = some t) :
    BlockInv t := by
  obtain ⟨m, r, _, _, hr, rfl⟩ := completeData_some s e
  obtain ⟨_, hroom, _⟩ := (passLegal_data hp).1 h.pass_legal
  have hlen : r.1.length ≤ bo := by
    rw [hr]
    exact List.length_take_le _ _
  refine (h.endPass .data _ _ _ ?_ h.final_phase).notifyCheck s
  rw [List.length_append, List.length_map]
  omega

theorem completeKeyPrep (h : BlockInv s) (e : completeKeyPrep s = some t) : BlockInv t := by
  obtain ⟨_, rfl⟩ := completeKeyPrep_some s e
  exact (h.endPass .keyPrep s.iv s.csw s.csf h.outQ_bound h.final_phase).notifyCheck s

theorem completeInit (h : BlockInv s) (e : completeInit s = some t) : BlockInv t := by
  obtain ⟨_, _, _, _, _, rfl⟩ := completeInit_some s e
  exact (h.endPass .init _ _ _ h.outQ_bound h.final_phase).notifyCheck s

theorem completeTag (h : BlockInv s) (hp : s.pass = some .tag) (e : completeTag s = some t) : BlockInv t := by
  obtain ⟨_, r, _, _, hroom, _, rfl⟩ := completeTag_some s e
  obtain ⟨_, hfinal, _⟩ := (passLegal_tag hp).1 h.pass_legal
  refine (h.endPass .tag _ _ _ ?_ fun _ => hfinal).notifyCheck s
  rw [List.length_append, List.length_map, Vector.length_toList]
  exact hroom

theorem engineStep (h : BlockInv s) (e : engineStep s = some t) : BlockInv t := by
  unfold Machine.engineStep at e
  split at e
  case h_1 => exact h.startBlock e
  case h_2 hp => exact h.completeData hp e
  case h_3 => exact h.completeKeyPrep e
  case h_4 => exact h.completeInit e
  case h_5 hp => exact h.completeTag hp e

theorem dmaInStep (h : BlockInv s) (e : dmaInStep s = some t) : BlockInv t := by
  obtain ⟨w, _, _, hroom, ht⟩ := dmaInStep_some s e
  have hq : (s.inQ ++ [w]).length ≤ s.params.inDepth := by simpa using hroom
  rw [ht]
  exact (h.fifos hq le_rfl).of_frame rfl

theorem dmaOutStep (h : BlockInv s) (e : dmaOutStep s = some t) : BlockInv t := by
  obtain ⟨w, ho, _, ht⟩ := dmaOutStep_some s e
  have hlen : t.outQ.length ≤ s.outQ.length := by simp [ho]
  rw [ht]
  exact (h.fifos h.inQ_bound hlen).of_frame rfl

/-- R270, R280, R281: no turn of another agent breaks the block's invariant. -/
theorem agentStep (h : BlockInv s) (a : Turn) : BlockInv (agentStep a s) :=
  agentStep_of_enabled h (fun _ => h.engineStep) (fun _ => h.dmaInStep) (fun _ => h.dmaOutStep) a

/-! ### The CR write -/

/-- R278: the pass without input that a CR write starts, once CR holds the new value, is legal. -/
theorem startZeroInputPass (h : BlockInv s) (hb : s.busy = false) (old : Word) {new : Word} (hcr : s.cr = new) :
    BlockInv (startZeroInputPass old new s) := by
  subst hcr
  obtain ⟨⟨hc, _⟩, e⟩ | ⟨_, ⟨hc, _⟩, e⟩ | ⟨_, _, ⟨hc, _, hdone⟩, e⟩ | ⟨_, _, _, e⟩ :=
    startZeroInputPass_cases s old s.cr hb
  all_goals rw [e]
  · simp only [keyPrepCondition, Bool.and_eq_true, beq_iff_eq] at hc
    have hkey : BlockInv { s with decKeyReady := false } :=
      h.of_idle rfl { h.idle hb with } h.cr_legal h.inQ_bound h.outQ_bound h.final_phase
    exact hkey.startPass hc.1 ((passLegal_keyPrep rfl).2 ⟨hc.2, rfl, rfl⟩)
  · simp only [initCondition, Bool.and_eq_true, beq_iff_eq] at hc
    exact h.startPass hc.1.1 ((passLegal_init rfl).2 ⟨hc.1.2, hc.2, rfl⟩)
  · simp only [tagCondition, Bool.and_eq_true, beq_iff_eq] at hc
    have haead : (crMode s.cr).any Mode.isAead = true := by
      obtain ⟨m, hm, hma⟩ := (Option.any_eq_true _ _).1 hc.1.2
      exact (Option.any_eq_true _ _).2 ⟨m, hm, (Bool.and_eq_true _ _ ▸ hma).1⟩
    exact h.startPass hc.1.1 ((passLegal_tag rfl).2 ⟨haead, hc.2, hdone, .inl rfl⟩)
  · exact h

/-- A legal CR write that finds the engine idle. -/
theorem crApply_idle (h : BlockInv s) {v : Word} (hb : s.busy = false) (hv : crWriteLegal v s) :
    BlockInv (crApply v s) := by
  rw [Machine.crApply_idle s v hb]
  refine startZeroInputPass ?stored ?idle s.cr rfl
  case idle => exact hb
  refine h.of_idle rfl { h.idle hb with } (crLegal_crStored hv.1) ?_ ?_ ?_
  · dsimp only
    split
    · exact Nat.zero_le _
    · exact h.inQ_bound
  · dsimp only
    split
    · exact Nat.zero_le _
    · exact h.outQ_bound
  · dsimp only
    split
    · next hp =>
      intro hd
      rw [← h.final_phase hd]
      exact congrArg Phase.ofCode hp.symm
    · exact nofun

/-- While a pass is in flight a legal CR write keeps the configuration and the phase (R201, R279). -/
theorem sameConfig_of_busy (h : BlockInv s) {v : Word} (hb : s.busy = true) (hv : crWriteLegal v s) :
    SameConfig s.cr (crStored v) := by
  have hactive : s.activeNow := ⟨h.busy_enabled hb, fun hd => by rw [hb] at hd; exact absurd hd.2.2 nofun⟩
  obtain ⟨hcfg, hphase⟩ := hv.2.1 hactive
  exact ⟨hcfg.trans (crStored_cfg v).symm, hphase.trans (crStored_phase v).symm⟩

/-- A legal CR write during a pass: the pass goes on, or CRYPEN 0 aborts it (R277, R279). -/
theorem crApply_busy (h : BlockInv s) {v : Word} (hb : s.busy = true) (hv : crWriteLegal v s) :
    BlockInv (crApply v s) := by
  have hsame := h.sameConfig_of_busy hb hv
  have hnoflush : v.getLsbD 14 = false := by simpa [hb] using hv.2.2
  cases hn : crypen (crStored v) with
  | true =>
    rw [crApply_running s v hb (.inr hn) hnoflush, if_pos hsame.ksField_eq, if_pos hsame.phaseField_eq]
    exact { h with
      cr_legal := crLegal_crStored hv.1
      busy_enabled := fun _ => hn
      pass_legal := passLegal_sameConfig hsame h.pass_legal
      final_phase := fun hd => hsame.phaseOf_eq ▸ h.final_phase hd }
  | false =>
    obtain ⟨p, hp⟩ := h.pass_of_busy hb
    obtain ⟨habort, hidle⟩ := h.abortPass hp
    have hcr : (Machine.abortPass s).cr = s.cr := by
      unfold Machine.abortPass
      split <;> rfl
    rw [crApply_abort s v hb (h.busy_enabled hb) hn hnoflush hsame.ksField_eq hsame.phaseField_eq]
    refine habort.of_idle rfl { hidle with } (crLegal_crStored hv.1) habort.inQ_bound
      habort.outQ_bound fun hd => ?_
    rw [← hsame.phaseOf_eq, ← hcr]
    exact habort.final_phase hd

theorem crApply (h : BlockInv s) {v : Word} (hv : crWriteLegal v s) : BlockInv (crApply v s) := by
  cases hb : s.busy with
  | true => exact h.crApply_busy hb hv
  | false => exact h.crApply_idle hb hv

/-! ### The other rows -/

/-- A key register write, which no pass in flight can see (R217). -/
theorem writeKey (h : BlockInv s) (hb : s.busy = false) (key : Vector Word 8) :
    BlockInv { s with key := key, decKeyReady := false } :=
  h.of_idle rfl { h.idle hb with } h.cr_legal h.inQ_bound h.outQ_bound h.final_phase

/-- A register row that raises no fault keeps the block's invariant. -/
theorem row (h : BlockInv s) {row : Row} (hr : IsRow row) {v : Option Word} (e : row s = .done t v) : BlockInv t := by
  cases hr
  case wCr w =>
    unfold rowWCr at e
    split at e
    · cases e
    · next hf =>
      cases e
      exact h.crApply ((crFault_none_iff s w).1 hf)
  case wDin w =>
    unfold rowWDin at e
    split at e
    · cases e
    · next hne =>
      cases e
      have hq : (s.inQ ++ [w]).length ≤ s.params.inDepth := by
        have := h.inQ_bound
        rw [List.length_append, List.length_singleton]
        omega
      exact h.fifos hq le_rfl
  case rDout =>
    unfold rowRDout at e
    split at e
    · cases e
    · next w rest ho =>
      cases e
      exact h.fifos h.inQ_bound (by simp [ho])
  case wKey k w =>
    unfold rowWKey at e
    split at e
    · cases e
    · next hb =>
      cases e
      exact h.writeKey (Bool.not_eq_true _ ▸ hb) _
  case wDmacr w => cases e; exact h.dmacr w
  case wImscr w => cases e; exact h.imscr w
  case wIv => unfold rowWIv at e; split at e <;> cases e; exact h.of_frame rfl
  case wCsw => unfold rowWCsw at e; split at e <;> cases e; exact h.of_frame rfl
  case wCsf => unfold rowWCsf at e; split at e <;> cases e; exact h.of_frame rfl
  case rIv => unfold rowRIv at e; split at e <;> cases e <;> exact h.of_frame rfl
  case rCsw => unfold rowRCsw at e; split at e <;> cases e <;> exact h.of_frame rfl
  case rCsf => unfold rowRCsf at e; split at e <;> cases e <;> exact h.of_frame rfl
  case busErr => cases e
  all_goals cases e; exact h.of_frame rfl

/-- R225: so does a transaction, whatever its width and whether or not it faults. -/
theorem transaction (h : BlockInv s) {row : Row} (hr : IsRow row) (width : Nat) : BlockInv (transaction width row s).1 := by
  obtain ⟨k, e⟩ | ⟨t, v, hd, _, e⟩ := transaction_frame hr width s
  · rw [e]; exact h.raiseFault k
  · rw [e]; exact (h.row hr hd).notifyCheck s

theorem crLegal_reset : crLegal State.reset.cr := by decide

/-- R540, R541: a block reset restores the invariant; of what it keeps, it reads the parameters and the fault set. -/
theorem blockReset (h : BlockInv s) : BlockInv (blockReset s) := by
  unfold Machine.blockReset
  refine notifyCheck ?_ s
  exact
    { params_ok := h.params_ok
      cr_legal := crLegal_reset
      dmacr_legal := BitVec.zero_and
      imscr_legal := BitVec.zero_and
      inQ_bound := Nat.zero_le _
      outQ_bound := Nat.zero_le _
      busy_iff := rfl
      busy_enabled := nofun
      pass_legal := (passLegal_none rfl).2 rfl
      final_phase := nofun
      faults_sorted := h.faults_sorted }

end BlockInv

end Sys2Proof.Machine
end

section
/-! What a property needs so that every step keeps it, beyond what `Keeps` asks of the meanings: the host's own lines. -/

namespace Sys2Proof.Machine

/-- A property that every part of every meaning keeps, and every line of a program with them. -/
structure KeepsStep (P : State → Prop) : Prop extends Keeps P where
  prog : ∀ u l, P u → P { u with prog := l }
  bindOk : ∀ u ok, P u → P (u.bindOk ok)
  blockReset : ∀ u, P u → P (blockReset u)

/-- The state an action leaves, or starts its instruction from, has the property. -/
def Action.Holds (P : State → Prop) : Action → Prop
  | .moved s => P s
  | .run _ s => P s
  | .ended => True
  | .refused _ => True

theorem runRecord_holds {P : State → Prop} (r : Record) {s : State} (h : P s) : (runRecord r s).Holds P := by
  unfold runRecord
  split
  · exact h
  · trivial

namespace KeepsStep

variable {P : State → Prop} (K : KeepsStep P) {s t : State}
include K

theorem engineStep (h : P s) (e : engineStep s = some t) : P t := by
  have ht := K.agent s .engine h
  unfold agentStep at ht
  rw [e] at ht
  exact ht

theorem lineAction (l : Line) (h : P s) : (lineAction l s).Holds P := by
  cases l with
  | record r => exact runRecord_holds _ h
  | setb off m => exact runRecord_holds _ (K.prog _ _ h)
  | clrb off m => exact runRecord_holds _ (K.prog _ _ h)
  | wrOr off m => exact runRecord_holds _ h
  | wrAnd off m => exact runRecord_holds _ h
  | poll off m v n =>
    cases n with
    | zero => exact K.bindOk _ _ h
    | succ left => exact runRecord_holds _ (K.prog _ _ h)
  | pollTest off m v left seen =>
    unfold Machine.lineAction
    dsimp only
    split
    · exact K.bindOk _ _ h
    · exact K.prog _ _ h
  | restoreHeld id key => exact h
  | blockReset => exact K.blockReset _ h

theorem hostAction (h : P s) : (hostAction s).Holds P := by
  unfold Machine.hostAction
  split
  · exact K.lineAction _ (K.prog _ _ h)
  · split
    · next e => exact K.engineStep h e
    · split
      · trivial
      · exact h

theorem nextAction (h : P s) : (nextAction s).Holds P := by
  unfold Machine.nextAction
  split
  · exact K.hostAction h
  · exact K.hostAction (K.sched _ _ h)
  all_goals exact K.agent _ _ (K.sched _ _ h)

/-- R109, R557: every step, of every agent and of every line, keeps the property. -/
theorem step (h : P s) (e : step s = .next t) : P t := by
  have ha := K.nextAction h
  unfold Machine.step at e
  split at e
  · next hm => cases e; rw [hm] at ha; exact ha
  · next hr => rw [hr] at ha; exact exec_keeps K.toKeeps ha e
  · cases e
  · cases e

end KeepsStep

end Sys2Proof.Machine
end

section
/-! The machine's invariant: the block's, with the bookkeeping of snapshots (R66, R67). -/

namespace Sys2Proof.Machine

variable {s t : State}

namespace IdsInv

/-- The bookkeeping reads the outstanding ids, the next id and the host's snapshots. -/
theorem congr (h : IdsInv s) (houtstanding : t.ctl.outstanding = s.ctl.outstanding) (hnext : t.ctl.nextId = s.ctl.nextId)
    (hsnaps : t.snaps = s.snaps) : IdsInv t :=
  ⟨houtstanding ▸ h.rising, by rw [houtstanding, hnext]; exact h.given, by rw [hsnaps, hnext]; exact h.held⟩

/-- An update that leaves the controller and the snapshots alone. -/
theorem of_ctl (h : IdsInv s) (hctl : t.ctl = s.ctl) (hsnaps : t.snaps = s.snaps) : IdsInv t :=
  h.congr (congrArg _ hctl) (congrArg _ hctl) hsnaps

theorem transaction (h : IdsInv s) {row : Row} (hr : IsRow row) (width : Nat) :
    IdsInv (transaction width row s).1 := by
  obtain ⟨k, e⟩ | ⟨t, v, _, hf, e⟩ := transaction_frame hr width s
  · rw [e]; exact h.of_ctl rfl rfl
  · rw [e]; exact h.of_ctl ((notifyCheck_ctl ..).trans hf.ctl) ((notifyCheck_snaps ..).trans hf.snaps)

/-- R461: save gives the next id away, to a snapshot with the configuration bits of a legal CR. -/
theorem capture (h : IdsInv s) {snap : ContextSnapshot} (hid : snap.id = s.ctl.nextId) {cr : Word} (hcr : crLegal cr)
    (hbits : snap.cfgBits = cr &&& snapMask) :
    IdsInv { s.withCtl ctlAfterSave with snaps := s.snaps ++ [snap] } where
  rising := insertId_rising h.rising
  given n hn := by
    obtain rfl | hn := mem_insertId.1 hn
    · exact Nat.lt_succ_self _
    · exact Nat.lt_succ_of_lt (h.given n hn)
  held p hp := by
    obtain hp | hp := List.mem_append.1 hp
    · obtain ⟨hlt, hmask, hres⟩ := h.held p hp
      exact ⟨Nat.lt_succ_of_lt hlt, hmask, hres⟩
    · obtain rfl := List.mem_singleton.1 hp
      refine ⟨hid ▸ Nat.lt_succ_self _, ?_, ?_⟩
      · rw [hbits]; exact and_mask_and_not cr _
      · rw [hbits, reservedConfig_snapMask]; exact hcr.2

/-- R464: restore takes an id out of the outstanding ones. -/
theorem resume (h : IdsInv s) {id : Nat} {f : Controller → Controller}
    (hf : ∀ c, (f c).outstanding = removeId id c.outstanding ∧ (f c).nextId = c.nextId) : IdsInv (s.withCtl f) := by
  obtain ⟨houtstanding, hnext⟩ := hf s.ctl
  refine ⟨?_, fun n hn => ?_, fun p hp => ?_⟩
  · rw [State.withCtl_ctl, houtstanding]
    exact removeId_rising h.rising
  · rw [State.withCtl_ctl, houtstanding] at hn
    rw [State.withCtl_ctl, hnext]
    exact h.given n (mem_removeId.1 hn).1
  · rw [State.withCtl_ctl, hnext]
    exact h.held p hp

/-- R541: a block reset forgets the outstanding ids and goes on with the next one. -/
theorem blockReset (h : IdsInv s) : IdsInv (blockReset s) where
  rising := by rw [blockReset_ctl]; exact List.Pairwise.nil
  given := by rw [blockReset_ctl]; exact nofun
  held := by rw [blockReset_ctl, blockReset_snaps]; exact h.held

end IdsInv

namespace StateInv

/-- No field that either part of the invariant reads has changed. -/
theorem of_frame (h : StateInv s) (rest : t = { s with
    key := t.key, iv := t.iv, csw := t.csw, csf := t.csf, events := t.events, src := t.src, snk := t.snk
    prog := t.prog, reads := t.reads, oks := t.oks, sched := t.sched, draws := t.draws }) : StateInv t := by
  rw [rest]
  exact ⟨h.block.of_frame rfl, h.ids.of_ctl rfl rfl⟩

theorem agentStep (h : StateInv s) (a : Turn) : StateInv (agentStep a s) := by
  have hhost := (agentStep_moves s h.block.busy_iff a).host
  exact ⟨h.block.agentStep a, h.ids.of_ctl (by rw [hhost]) (by rw [hhost])⟩

theorem transaction (h : StateInv s) {row : Row} (hr : IsRow row) (width : Nat) : StateInv (transaction width row s).1 :=
  ⟨h.block.transaction hr width, h.ids.transaction hr width⟩

end StateInv

/-- Every part of every meaning, and every line of a program, keeps the machine's invariant. -/
theorem keepsStep_stateInv : KeepsStep StateInv where
  sched _ _ h := h.of_frame rfl
  agent _ a h := h.agentStep a
  row _ width _ hr h := h.transaction hr width
  reads _ _ h := h.of_frame rfl
  result _ _ _ h := h.of_frame rfl
  ctl u _ hf h := ⟨h.block.of_frame rfl, h.ids.congr (hf u.ctl).1 (hf u.ctl).2 rfl⟩
  capture _ _ h hid hbits := by
    obtain ⟨u0, h0, hbits⟩ := hbits
    exact ⟨h.block.of_frame rfl, h.ids.capture hid h0.block.cr_legal hbits⟩
  resume _ _ _ hf h := ⟨h.block.of_frame rfl, h.ids.resume hf⟩
  prog _ _ h := h.of_frame rfl
  bindOk _ _ h := h.of_frame rfl
  blockReset _ h := ⟨h.block.blockReset, h.ids.blockReset⟩

/-- Settles O38: the invariant is kept by each part of a step, so by the step. -/
theorem everyStepKeepsTheInvariant : Obligations.EveryStepKeepsTheInvariant := by
  unfold Obligations.EveryStepKeepsTheInvariant
  exact fun s t h e => keepsStep_stateInv.step h e

end Sys2Proof.Machine
end

section
/-! What no step takes back: the fault set and the event history only grow (R64, R65). -/

namespace Sys2Proof.Machine

variable {s t u : State}

/-- From `s` to `t` no fault is taken out of the set and no entry out of the history. -/
structure Grows (s t : State) : Prop where
  faults : s.faults ⊆ t.faults
  events : s.events <+: t.events

namespace Grows

theorem refl (s : State) : Grows s s := ⟨List.Subset.refl _, [], List.append_nil _⟩

theorem trans (h : Grows s t) (k : Grows t u) : Grows s u := ⟨fun _ hj => k.faults (h.faults hj), h.events.trans k.events⟩

/-- A step that writes neither record. -/
theorem of_eq (hf : t.faults = s.faults) (he : t.events = s.events) : Grows s t :=
  ⟨hf ▸ List.Subset.refl _, [], by rw [he, List.append_nil]⟩

/-- A step that raises no fault and appends to the history. -/
theorem of_append (hf : t.faults = s.faults) {es : List Event} (he : t.events = s.events ++ es) : Grows s t :=
  ⟨hf ▸ List.Subset.refl _, es, he.symm⟩

theorem raiseFault (s : State) (k : FaultKind) : Grows s (s.raiseFault k) :=
  ⟨fun _ hj => mem_insertFault.2 (.inr hj), [], List.append_nil _⟩

theorem emit (s : State) (e : Event) : Grows s (s.emit e) := of_append rfl rfl

theorem notifyCheck (before after : State) : Grows after (notifyCheck before after) :=
  of_append (notifyCheck_faults ..) (notifyCheck_events ..)

/-- The update that an engine step makes from `s`, with its own entry and the notifications after it. -/
theorem emit_notifyCheck (before : State) {e : Event} (h : Grows s t) : Grows s (Machine.notifyCheck before (t.emit e)) :=
  h.trans ((emit t e).trans (notifyCheck before _))

theorem engineStep (h : engineStep s = some t) : Grows s t := by
  unfold Machine.engineStep at h
  split at h
  · obtain ⟨_, _, _, _, _, _, _, _, ⟨_, rfl⟩ | ⟨_, rfl⟩⟩ := startBlock_some s h
    · exact raiseFault s _
    · exact emit_notifyCheck s (of_eq rfl rfl)
  · obtain ⟨_, _, _, _, _, rfl⟩ := completeData_some s h
    exact emit_notifyCheck s (of_eq rfl rfl)
  · obtain ⟨_, rfl⟩ := completeKeyPrep_some s h
    exact emit_notifyCheck s (of_eq rfl rfl)
  · obtain ⟨_, _, _, _, _, rfl⟩ := completeInit_some s h
    exact emit_notifyCheck s (of_eq rfl rfl)
  · obtain ⟨_, _, _, _, _, _, rfl⟩ := completeTag_some s h
    exact emit_notifyCheck s (of_eq rfl rfl)

theorem dmaInStep (h : dmaInStep s = some t) : Grows s t := by
  obtain ⟨_, _, _, _, ht⟩ := dmaInStep_some s h
  rw [ht]
  exact of_append rfl (List.append_assoc ..)

theorem dmaOutStep (h : dmaOutStep s = some t) : Grows s t := by
  obtain ⟨_, _, _, ht⟩ := dmaOutStep_some s h
  rw [ht]
  exact of_append rfl (List.append_assoc ..)

theorem agentStep (s : State) (a : Turn) : Grows s (agentStep a s) :=
  agentStep_of_enabled (refl s) (fun _ => engineStep) (fun _ => dmaInStep) (fun _ => dmaOutStep) a

theorem transaction (s : State) {row : Row} (hr : IsRow row) (width : Nat) :
    Grows s (transaction width row s).1 := by
  obtain ⟨k, e⟩ | ⟨t, v, _, hf, e⟩ := transaction_frame hr width s
  · rw [e]; exact raiseFault s k
  · rw [e]
    obtain ⟨es, he⟩ := hf.events
    exact (of_append hf.faults he).trans (notifyCheck s t)

theorem blockReset (s : State) : Grows s (blockReset s) :=
  of_append (blockReset_faults s) (notifyCheck_events s _)

end Grows

/-- To have grown from `s` is kept by every step. -/
theorem keepsStep_grows (s : State) : KeepsStep (Grows s) where
  sched _ _ h := h.trans (.of_eq rfl rfl)
  agent u a h := h.trans (.agentStep u a)
  row u width _ hr h := h.trans (.transaction u hr width)
  reads _ _ h := h.trans (.of_eq rfl rfl)
  result u _ _ h := h.trans (.emit u _)
  ctl _ _ _ h := h.trans (.of_eq rfl rfl)
  capture _ _ h _ _ := h.trans (.of_eq rfl rfl)
  resume _ _ _ _ h := h.trans (.of_eq rfl rfl)
  prog _ _ h := h.trans (.of_eq rfl rfl)
  bindOk _ _ h := h.trans (.of_eq rfl rfl)
  blockReset u h := h.trans (.blockReset u)

/-- Settles O39: every part of a step, a block reset among them, only adds to the two records. -/
theorem faultsAndHistoryOnlyGrow : Obligations.FaultsAndHistoryOnlyGrow := by
  unfold Obligations.FaultsAndHistoryOnlyGrow
  refine ⟨rfl, rfl, fun s t h => ?_⟩
  have hg := (keepsStep_grows s).step (Grows.refl s) h
  obtain ⟨es, he⟩ := hg.events
  exact ⟨fun _ hk => hg.faults hk, es, he.symm⟩

end Sys2Proof.Machine
end

section
/-! The computed status registers: the bits of RISR and MISR, and what a read or a write of a status register does. -/

namespace Sys2Proof.Machine

variable (s : State)

/-! ### Bits -/

/-- Above its five predicates SR reads 0 (R40). -/
theorem srWord_high {n : Nat} (h : 5 ≤ n) : s.srWord.getLsbD n = false := by
  unfold State.srWord
  rw [BitVec.getLsbD_setWidth, BitVec.getLsbD_of_ge _ _ h, Bool.and_false]

@[simp] theorem risrWord_bit0 : s.risrWord.getLsbD 0 = s.ifnf := by
  unfold State.risrWord
  cases s.ofne <;> cases s.ifnf <;> decide

@[simp] theorem risrWord_bit1 : s.risrWord.getLsbD 1 = s.ofne := by
  unfold State.risrWord
  cases s.ofne <;> cases s.ifnf <;> decide

/-- Above its two sources RISR reads 0 (R51). -/
theorem risrWord_high {n : Nat} (h : 2 ≤ n) : s.risrWord.getLsbD n = false := by
  unfold State.risrWord
  rw [BitVec.getLsbD_setWidth, BitVec.getLsbD_of_ge _ _ h, Bool.and_false]

/-! ### Reads and writes -/

/-- A read row with no effect: the value goes to the host's record of reads and nothing else changes. -/
theorem hostTransaction_readOnly {row : Row} {x : Word} (h : row s = .done s (some x)) :
    hostTransaction 4 row s = { s with reads := s.reads ++ [x] } := by
  rw [hostTransaction_read s h, notifyCheck_self]

/-- A write row with no effect: nothing changes. -/
theorem hostTransaction_noEffect {row : Row} (h : row s = .done s none) : hostTransaction 4 row s = s := by
  rw [hostTransaction_write s h, notifyCheck_self]

theorem exec_rSr : exec (.rSr 4) s = .next { s with reads := s.reads ++ [s.srWord] } :=
  congrArg Host.Outcome.next (hostTransaction_readOnly s (row := rowRSr) rfl)

theorem exec_rRisr : exec (.rRisr 4) s = .next { s with reads := s.reads ++ [s.risrWord] } :=
  congrArg Host.Outcome.next (hostTransaction_readOnly s (row := rowRRisr) rfl)

theorem exec_rMisr : exec (.rMisr 4) s = .next { s with reads := s.reads ++ [s.misrWord] } :=
  congrArg Host.Outcome.next (hostTransaction_readOnly s (row := rowRMisr) rfl)

theorem exec_wSr (v : Word) : exec (.wSr 4 v) s = .next s :=
  congrArg Host.Outcome.next (hostTransaction_noEffect s (row := rowWSr v) rfl)

theorem exec_wRisr (v : Word) : exec (.wRisr 4 v) s = .next s :=
  congrArg Host.Outcome.next (hostTransaction_noEffect s (row := rowWRisr v) rfl)

theorem exec_wMisr (v : Word) : exec (.wMisr 4 v) s = .next s :=
  congrArg Host.Outcome.next (hostTransaction_noEffect s (row := rowWMisr v) rfl)

theorem srWord_reset : State.reset.srWord = 0x00000003 := by decide

theorem risrWord_reset : State.reset.risrWord = 0x00000001 := by decide

/-- Settles O11: each read returns the word computed from the state it runs on, whose bits are the predicates. -/
theorem statusRegistersAreComputedFresh : Obligations.StatusRegistersAreComputedFresh := by
  unfold Obligations.StatusRegistersAreComputedFresh
  refine ⟨⟨fun s => ?_, exec_wSr, fun s v => ⟨exec_wRisr s v, exec_wMisr s v⟩, ?_, ?_⟩, fun s => ?_⟩
  · exact ⟨s.srWord, exec_rSr s, srWord_bit0 s, srWord_bit1 s, srWord_bit2 s, srWord_bit3 s, srWord_bit4 s,
      fun _ => srWord_high s⟩
  · rw [exec_rSr, srWord_reset]; rfl
  · rw [exec_rRisr, risrWord_reset]; rfl
  · exact ⟨s.risrWord, s.misrWord, ⟨rfl, exec_rRisr s⟩, ⟨rfl, exec_rMisr s⟩, risrWord_bit0 s, risrWord_bit1 s,
      fun _ => risrWord_high s, rfl, rfl⟩

end Sys2Proof.Machine
end

section
/-! What the decoder answers is well formed: a presence rule for each kind of argument record (R68, R140, R160). -/

namespace Sys2Proof

/-- WIDTH of a record is an access size of 1 to 255 bytes (R140). -/
theorem widthWf_readWidth (c : BitVec 8) : widthWf (readWidth c) = true := by
  unfold widthWf readWidth
  by_cases hc : c = 0
  · rw [hc]; decide
  · have hpos : c.toNat ≠ 0 := fun h => hc (BitVec.eq_of_toNat_eq h)
    rw [if_neg (by simpa using hc), decide_eq_true_eq]
    exact ⟨Nat.one_le_iff_ne_zero.mpr hpos, c.isLt⟩

/-- A row of format BUS makes a well-formed instruction exactly where WIDTH is well formed (R140, R141). -/
theorem wf_build_of_mem_busRows {row : BusRow} (h : row ∈ busRows) (t : BitVec 9) (n : Nat) (d : Word) :
    (row.build t n d).wf = widthWf n := by
  have hall : ∀ row ∈ busRows, (row.build t n d).wf = widthWf n := by
    simp only [busRows, busRowsError, busRowsPorts, busRowsInterrupt, busRowsFiles, List.cons_append, List.nil_append,
      List.forall_mem_cons, Instr.wf, List.not_mem_nil, false_implies, implies_true, and_self]
  exact hall row h

theorem wf_of_parseBus {sel : BitVec 9} {c : BitVec 8} {d : Word} {i : Instr} (h : parseBus sel c d = .ok i) :
    i.wf = true := by
  unfold parseBus at h
  split at h
  · next row hrow =>
    cases h
    rw [wf_build_of_mem_busRows (List.mem_of_find?_eq_some hrow), widthWf_readWidth]
  · cases h

/-- R153 gives a key size to the AES-family modes alone (R68). -/
theorem wf_of_decodeConfig {bits : Word} {cfg : EngineConfig} (h : decodeConfig bits = some cfg) : cfg.wf = true := by
  unfold decodeConfig at h
  split at h
  · cases h
  · next m hm =>
    split at h
    · next hAes =>
      split at h
      · cases h
      · cases h
        simp [EngineConfig.wf, hAes]
    · next hDes =>
      cases h
      simp [EngineConfig.wf, hDes]

theorem wf_of_parseConfigure {args : List Word} {i : Instr} (h : parseConfigure args = .ok i) : i.wf = true := by
  unfold parseConfigure at h
  split at h
  · next hcfg => cases h; exact wf_of_decodeConfig hcfg
  · cases h

/-- The id of a snapshot that words lay out is one of those words (R160). -/
theorem all_wf_readSnapshot (args : List Word) : (readSnapshot args).all ContextSnapshot.wf = true := by
  unfold readSnapshot
  split
  · exact decide_eq_true (argWord args 0).isLt
  · split
    · exact decide_eq_true (argWord args 0).isLt
    · rfl

/-- Configure and restore alone have an argument that can be ill formed (R155). -/
theorem wf_of_parseOp {sel : BitVec 5} {args : List Word} {i : Instr} (h : parseOp sel args = .ok i) : i.wf = true := by
  unfold parseOp at h
  split at h
  case h_1 => exact wf_of_parseConfigure h
  case h_16 => cases h; exact all_wf_readSnapshot args
  all_goals
    cases h
    rfl

/-- The decoder answers well-formed instructions only. -/
theorem wf_of_decode {r : Record} {i : Instr} (h : decode r = .ok i) : i.wf = true := by
  cases r with
  | bus sel c d => exact wf_of_parseBus h
  | op sel args => exact wf_of_parseOp h

end Sys2Proof
end

section
/-! Whose step it is: the schedule's next turn, of the host with a record or of another agent (R109, R557). -/

namespace Sys2Proof.Machine

variable {s : State}

theorem hostAction_record {r : Record} {ps : List Line} {i : Instr} (hp : s.prog = .record r :: ps)
    (hd : decode r = .ok i) : hostAction s = .run i { s with prog := ps } := by
  unfold hostAction
  rw [hp]
  dsimp only [lineAction, runRecord]
  rw [hd]

theorem step_host_unscheduled (h : s.sched = []) {i : Instr} {u : State} (hu : hostAction s = .run i u) :
    step s = exec i u := by
  unfold step nextAction
  rw [h]
  dsimp only
  rw [hu]

theorem step_host_scheduled {rest : List Turn} (h : s.sched = .host :: rest) {i : Instr} {u : State}
    (hu : hostAction { s with sched := rest } = .run i u) : step s = exec i u := by
  unfold step nextAction
  rw [h]
  dsimp only
  rw [hu]

/-- Another agent's turn always answers a next state, the one `agentStep` gives (log entry 3). -/
theorem step_agent {a : Turn} {rest : List Turn} (h : s.sched = a :: rest) (ha : a ≠ .host) :
    step s = .next (agentStep a { s with sched := rest }) := by
  unfold step nextAction
  rw [h]
  cases a with
  | host => exact absurd rfl ha
  | engine | dmaIn | dmaOut => rfl

/-- Settles O7: the host's action for a record is to run what it decodes to, and what decodes is well formed. -/
theorem stepRunsTheDecodedInstruction : Obligations.StepRunsTheDecodedInstruction := by
  unfold Obligations.StepRunsTheDecodedInstruction
  intro s r ps i hp hd
  exact ⟨wf_of_decode hd, fun h => step_host_unscheduled h (hostAction_record hp hd),
    fun _ h => step_host_scheduled h (hostAction_record hp hd)⟩

/-- Settles O33: the step is the agent's, which moves as an agent may while `busy` tells of the pass (R61). -/
theorem agentsLeaveControlAndKeyRegisters : Obligations.AgentsLeaveControlAndKeyRegisters := by
  unfold Obligations.AgentsLeaveControlAndKeyRegisters
  intro s a rest hinv h ha
  exact ⟨_, step_agent h ha, agentStep_moves { s with sched := rest } hinv.busy_iff a⟩

end Sys2Proof.Machine
end

section
/-! Fields of a word: a field put back in its place is the word under the field's mask. -/

namespace Sys2Proof

theorem shiftLeft_extractLsb' {W : Nat} (x : BitVec W) (lo n : Nat) :
    (x.extractLsb' lo n).setWidth W <<< lo = x &&& ((BitVec.allOnes n).setWidth W <<< lo) := by
  ext i hi
  by_cases hlo : i < lo
  · simp [hlo]
  · simp [hlo, Nat.add_sub_cancel' (Nat.not_lt.1 hlo), BitVec.getLsbD_eq_getElem hi, Bool.and_comm]

/-- The parts of a word under disjoint masks add up. -/
theorem and_add_and {W : Nat} (x : BitVec W) {m k : BitVec W} (h : m &&& k = 0#W) :
    (x &&& m) + (x &&& k) = x &&& (m ||| k) := by
  have hdisjoint : (x &&& m) &&& (x &&& k) = 0#W := by
    rw [show (x &&& m) &&& (x &&& k) = (x &&& x) &&& (m &&& k) by ac_rfl, h, BitVec.and_zero]
  rw [BitVec.add_eq_or_of_and_eq_zero _ _ hdisjoint, ← BitVec.and_or_distrib_left]

end Sys2Proof
end

section
/-! Format BUS: each T selects one row, and a row and the encoder undo each other (R140, R141, R142). -/

namespace Sys2Proof
open Laws
open Machine (busRows_total)

/-! ### The row of a selector -/

/-- R141, over the 512 selectors. -/
theorem filter_selects_length (t : BitVec 9) : (busRows.filter (·.selects t)).length = 1 := by
  revert t
  decide +kernel

theorem mem_and_selects_of_find? {t : BitVec 9} {row : BusRow} (h : busRows.find? (·.selects t) = some row) :
    row ∈ busRows ∧ row.selects t = true :=
  ⟨List.mem_of_find?_eq_some h, List.find?_some (p := fun r : BusRow => r.selects t) h⟩

theorem decode_bus_of_find? {t : BitVec 9} {row : BusRow} (h : busRows.find? (·.selects t) = some row) (c : BitVec 8)
    (d : Word) : decode (.bus t c d) = .ok (row.build t (readWidth c) d) := by
  change parseBus t c d = _
  rw [parseBus, h]

/-- R141: a BUS record decodes by the one row its selector selects, wherever it stands in the table. -/
theorem decode_bus_of_selects {row : BusRow} (hrow : row ∈ busRows) {t : BitVec 9} (hsel : row.selects t = true)
    (c : BitVec 8) (d : Word) : decode (.bus t c d) = .ok (row.build t (readWidth c) d) := by
  obtain ⟨first, hfirst⟩ := busRows_total t
  obtain ⟨only, honly⟩ := List.length_eq_one_iff.1 (filter_selects_length t)
  have eq_only : ∀ r ∈ busRows, r.selects t = true → r = only := fun r hr hs =>
    List.mem_singleton.1 (honly ▸ List.mem_filter.2 ⟨hr, hs⟩)
  obtain ⟨hfirst_mem, hfirst_sel⟩ := mem_and_selects_of_find? hfirst
  have hsame : first = row := (eq_only first hfirst_mem hfirst_sel).trans (eq_only row hrow hsel).symm
  exact hsame ▸ decode_bus_of_find? hfirst c d

theorem decode_bus_total (t : BitVec 9) (c : BitVec 8) (d : Word) : ∃ i, decode (.bus t c d) = .ok i := by
  obtain ⟨row, hrow⟩ := busRows_total t
  exact ⟨_, decode_bus_of_find? hrow c d⟩

/-- Settles O3, over the 512 selectors and the one row that each decodes by. -/
theorem everySelectorSelectsExactlyOneRow : Obligations.EverySelectorSelectsExactlyOneRow := by
  unfold Obligations.EverySelectorSelectsExactlyOneRow
  exact ⟨filter_selects_length, decode_bus_total⟩

/-! ### WIDTH -/

theorem readWidth_widthCode {n : Nat} (h : widthWf n = true) : readWidth (widthCode n) = n := by
  have hn : 1 ≤ n ∧ n < 256 := of_decide_eq_true h
  by_cases h4 : n = 4
  · subst h4; rfl
  · have h0 : BitVec.ofNat 8 n ≠ 0 := fun e => by
      have := congrArg BitVec.toNat e
      simp at this
      omega
    rw [widthCode, if_neg h4, if_pos hn, readWidth, if_neg (mt beq_iff_eq.1 h0), BitVec.toNat_ofNat,
      Nat.mod_eq_of_lt hn.2]

/-- WIDTH is kept but for the two codes of width 4, of which the encoder writes 0 (log entry 8). -/
theorem widthCode_readWidth (c : BitVec 8) : widthCode (readWidth c) = if c = 4 then 0 else c := by
  by_cases h0 : c = 0
  · subst h0; rfl
  · have hread : readWidth c = c.toNat := if_neg (mt beq_iff_eq.1 h0)
    by_cases h4 : c = 4
    · subst h4; rfl
    · have hpos : c.toNat ≠ 0 := mt (BitVec.eq_of_toNat_eq (y := 0)) h0
      have hne4 : c.toNat ≠ 4 := mt (BitVec.eq_of_toNat_eq (y := 4)) h4
      rw [hread, widthCode, if_neg hne4, if_pos ⟨Nat.one_le_iff_ne_zero.2 hpos, c.isLt⟩, BitVec.ofNat_toNat,
        BitVec.setWidth_eq, if_neg h4]

/-! ### Encoding what a row makes -/

/-- `encode` writes for what a row makes of a record that record again, a read's DATA apart (R140). -/
def BusRow.EncodesBack (row : BusRow) : Prop :=
  ∀ (t : BitVec 9) (n : Nat) (d : Word), row.selects t = true →
    encode (row.build t n d) = .bus t (widthCode n) (if t.getLsbD 8 = true then d else 0)

/-- A row that tests W fixes it by its match; `sel` is the selector `encode` puts together again. -/
theorem encodesBack_of_fixedAccess {pattern mask : BitVec 9} {build : BitVec 9 → Nat → Word → Instr}
    (sel : BitVec 9 → BitVec 9) (hW : mask.getLsbD 8 = true) (hsel : ∀ t, t &&& mask = pattern → sel t = t)
    (henc : ∀ t n d, encode (build t n d) = .bus (sel t) (widthCode n) (if pattern.getLsbD 8 = true then d else 0)) :
    BusRow.EncodesBack ⟨pattern, mask, build⟩ := by
  intro t n d h
  have ht : t &&& mask = pattern := beq_iff_eq.1 h
  have hbit : pattern.getLsbD 8 = t.getLsbD 8 := by rw [← ht, BitVec.getLsbD_and, hW, Bool.and_true]
  rw [henc, hsel t ht, hbit]

theorem selBit_accessOf (t : BitVec 9) (d : Word) : (accessOf t d).selBit = t &&& 0x100 := by
  unfold accessOf
  rw [show (0x100 : BitVec 9) = BitVec.twoPow 9 8 from rfl, BitVec.and_twoPow t 8]
  split <;> rfl

theorem dataWord_accessOf (t : BitVec 9) (d : Word) :
    (accessOf t d).dataWord = if t.getLsbD 8 = true then d else 0 := by
  unfold accessOf
  split <;> rfl

/-- A row that does not test W reads the access from T; `off` is the offset `encode` puts together again. -/
theorem encodesBack_of_anyAccess {pattern mask : BitVec 9} {build : BitVec 9 → Nat → Word → Instr}
    (off : BitVec 9 → BitVec 9) (hoff : ∀ t, t &&& mask = pattern → off t = t &&& 0x0FF)
    (henc : ∀ t n d, encode (build t n d)
      = .bus ((accessOf t d).selBit + off t) (widthCode n) (accessOf t d).dataWord) :
    BusRow.EncodesBack ⟨pattern, mask, build⟩ := by
  intro t n d h
  have hsel : (accessOf t d).selBit + off t = t := by
    rw [selBit_accessOf, hoff t (beq_iff_eq.1 h), and_add_and t rfl]
    exact BitVec.and_allOnes
  rw [henc, hsel, dataWord_accessOf]

/-- What `encode` adds to a row's match for a field of T. -/
theorem ofNat_extractLsb' (t : BitVec 9) (lo w : Nat) :
    BitVec.ofNat 9 (2 ^ lo * (t.extractLsb' lo w).toNat) = t &&& ((BitVec.allOnes w).setWidth 9 <<< lo) := by
  rw [← shiftLeft_extractLsb']
  apply BitVec.eq_of_toNat_eq
  simp [Nat.shiftLeft_eq, Nat.mul_comm]

/-- A row's match and the field it does not test are together the bits of T under their masks. -/
theorem pattern_add_field {pattern mask t : BitVec 9} (lo w : Nat) {all : BitVec 9}
    (hdisjoint : mask &&& ((BitVec.allOnes w).setWidth 9 <<< lo) = 0#9)
    (hall : mask ||| ((BitVec.allOnes w).setWidth 9 <<< lo) = all) (h : t &&& mask = pattern) :
    pattern + BitVec.ofNat 9 (2 ^ lo * (t.extractLsb' lo w).toNat) = t &&& all := by
  rw [← h, ofNat_extractLsb', and_add_and t hdisjoint, hall]

theorem encodesBack_of_wholeSelector {pattern : BitVec 9} {build : BitVec 9 → Nat → Word → Instr}
    (henc : ∀ t n d, encode (build t n d) = .bus pattern (widthCode n) (if pattern.getLsbD 8 = true then d else 0)) :
    BusRow.EncodesBack ⟨pattern, 0x1FF, build⟩ :=
  encodesBack_of_fixedAccess (fun _ => pattern) rfl (fun _ h => h.symm.trans BitVec.and_allOnes) henc

/-- An indexed row tests every bit of T but the `w` bits of its index at T[2]. -/
theorem encodesBack_of_index (w : Nat) {pattern mask : BitVec 9} {build : BitVec 9 → Nat → Word → Instr}
    (hW : mask.getLsbD 8 = true) (hdisjoint : mask &&& ((BitVec.allOnes w).setWidth 9 <<< 2) = 0#9)
    (hall : mask ||| ((BitVec.allOnes w).setWidth 9 <<< 2) = BitVec.allOnes 9)
    (henc : ∀ t n d, encode (build t n d) = .bus (indexedSel pattern (t.extractLsb' 2 w).toNat) (widthCode n)
      (if pattern.getLsbD 8 = true then d else 0)) :
    BusRow.EncodesBack ⟨pattern, mask, build⟩ :=
  encodesBack_of_fixedAccess _ hW (fun _ h => (pattern_add_field 2 w hdisjoint hall h).trans BitVec.and_allOnes) henc

theorem encodesBack_of_mem_busRowsPorts : ∀ row ∈ busRowsPorts, row.EncodesBack := by
  simp only [busRowsPorts, List.forall_mem_cons, List.not_mem_nil, false_implies, implies_true, and_true]
  and_intros
  all_goals exact encodesBack_of_wholeSelector fun _ _ _ => rfl

theorem encodesBack_of_mem_busRowsInterrupt : ∀ row ∈ busRowsInterrupt, row.EncodesBack := by
  simp only [busRowsInterrupt, List.forall_mem_cons, List.not_mem_nil, false_implies, implies_true, and_true]
  and_intros
  all_goals exact encodesBack_of_wholeSelector fun _ _ _ => rfl

/-- The key rows have an index of three bits, the IV and context rows one of two. -/
theorem encodesBack_of_mem_busRowsFiles : ∀ row ∈ busRowsFiles, row.EncodesBack := by
  simp only [busRowsFiles, List.forall_mem_cons, List.not_mem_nil, false_implies, implies_true, and_true]
  refine ⟨encodesBack_of_index 3 rfl rfl rfl fun _ _ _ => rfl,
    encodesBack_of_index 3 rfl rfl rfl fun _ _ _ => rfl, ?_⟩
  and_intros
  all_goals exact encodesBack_of_index 2 rfl rfl rfl fun _ _ _ => rfl

/-- The selector of a misaligned row is written with its match last. -/
theorem ofNat_add_swap (field base : Nat) :
    BitVec.ofNat 9 (field + base) = BitVec.ofNat 9 base + BitVec.ofNat 9 field := by
  rw [Nat.add_comm, BitVec.ofNat_add]

/-- The rows of R224 leave W and the bits of the offset above the match free. -/
theorem encodesBack_of_mem_busRowsError : ∀ row ∈ busRowsError, row.EncodesBack := by
  simp only [busRowsError, List.forall_mem_cons, List.not_mem_nil, false_implies, implies_true, and_true]
  exact ⟨
    encodesBack_of_anyAccess _ (fun _ h => (ofNat_add_swap _ 1).trans (pattern_add_field 1 7 rfl rfl h))
      fun _ _ _ => rfl,
    encodesBack_of_anyAccess _ (fun _ h => (ofNat_add_swap _ 2).trans (pattern_add_field 2 6 rfl rfl h))
      fun _ _ _ => rfl,
    encodesBack_of_anyAccess _ (fun _ => pattern_add_field 2 2 rfl rfl) fun _ _ _ => rfl,
    encodesBack_of_anyAccess _ (fun _ => pattern_add_field 2 3 rfl rfl) fun _ _ _ => rfl,
    encodesBack_of_anyAccess _ (fun _ => pattern_add_field 2 4 rfl rfl) fun _ _ _ => rfl⟩

theorem encodesBack_of_mem_busRows : ∀ row ∈ busRows, row.EncodesBack := by
  unfold busRows
  simp only [List.forall_mem_append]
  exact ⟨encodesBack_of_mem_busRowsError, encodesBack_of_mem_busRowsPorts, encodesBack_of_mem_busRowsInterrupt,
    encodesBack_of_mem_busRowsFiles⟩

theorem encode_of_decode_bus {sel : BitVec 9} {code : BitVec 8} {data : Word} {i : Instr}
    (h : decode (.bus sel code data) = .ok i) :
    encode i = .bus sel (widthCode (readWidth code)) (if sel.getLsbD 8 = true then data else 0) := by
  obtain ⟨row, hrow⟩ := busRows_total sel
  obtain ⟨hmem, hsel⟩ := mem_and_selects_of_find? hrow
  rw [decode_bus_of_find? hrow] at h
  cases h
  exact encodesBack_of_mem_busRows row hmem sel _ data hsel

/-- Settles O2: the record decodes by a row that encodes back, and WIDTH is kept. -/
theorem encodeOfDecodedBusRecordGivesTheRecord : Obligations.EncodeOfDecodedBusRecordGivesTheRecord := by
  unfold Obligations.EncodeOfDecodedBusRecordGivesTheRecord
  intro sel code data i h
  rw [encode_of_decode_bus h, widthCode_readWidth]

/-! ### Decoding what `encode` writes -/

/-- A field of `w` bits at T[lo] is read back from a match whose bits there are 0. -/
theorem extractLsb'_add_field {lo w : Nat} (hw : w + lo ≤ 9) {base : BitVec 9}
    (hbase : base.toNat % 2 ^ (w + lo) < 2 ^ lo) (o : BitVec w) :
    (base + BitVec.ofNat 9 (2 ^ lo * o.toNat)).extractLsb' lo w = o := by
  obtain ⟨rest, hrest⟩ := Nat.exists_eq_add_of_le hw
  have hsplit : 2 ^ 9 = 2 ^ lo * (2 ^ w * 2 ^ rest) := by rw [hrest, pow_add, pow_add]; ring
  have hsum : base.toNat + 2 ^ lo * o.toNat
      = base.toNat % 2 ^ (w + lo) + 2 ^ lo * (2 ^ w * (base.toNat / 2 ^ (w + lo)) + o.toNat) := by
    conv_lhs => rw [← Nat.mod_add_div base.toNat (2 ^ (w + lo))]
    rw [pow_add]
    ring
  have hdiv : (base.toNat + 2 ^ lo * o.toNat) / 2 ^ lo = 2 ^ w * (base.toNat / 2 ^ (w + lo)) + o.toNat := by
    rw [hsum, Nat.add_mul_div_left _ _ (Nat.two_pow_pos lo), Nat.div_eq_of_lt hbase, Nat.zero_add]
  apply BitVec.eq_of_toNat_eq
  rw [BitVec.extractLsb'_toNat, BitVec.toNat_add, BitVec.toNat_ofNat, Nat.add_mod_mod, Nat.shiftRight_eq_div_pow,
    hsplit, Nat.mod_mul_right_div_self, Nat.mod_mod_of_dvd _ (Dvd.intro _ rfl), hdiv, Nat.mul_add_mod,
    Nat.mod_eq_of_lt o.isLt]

theorem index8_indexedSel {base : BitVec 9} (k : Fin 8) (hbase : base.toNat % 2 ^ 5 < 2 ^ 2 := by decide) :
    index8 (indexedSel base k) = k :=
  congrArg BitVec.toFin (extractLsb'_add_field (lo := 2) (w := 3) (by decide) hbase (.ofFin k))

theorem index4_indexedSel {base : BitVec 9} (k : Fin 4) (hbase : base.toNat % 2 ^ 4 < 2 ^ 2 := by decide) :
    index4 (indexedSel base k) = k :=
  congrArg BitVec.toFin (extractLsb'_add_field (lo := 2) (w := 2) (by decide) hbase (.ofFin k))

/-- The W bit is bit 8 of T (R140): an offset below 256 does not reach it. -/
theorem accessOf_selBit_add (a : Access) {off : BitVec 9} (h : off.toNat < 256) :
    accessOf (a.selBit + off) a.dataWord = a := by
  have hbit : (a.selBit + off).getLsbD 8 = decide (256 ≤ (a.selBit + off).toNat) := by
    rw [show (256 : Nat) = 2 ^ (9 - 1) from rfl, ← BitVec.msb_eq_decide]
    rfl
  unfold accessOf
  rw [hbit, BitVec.toNat_add]
  cases a with
  | read => rw [if_neg (by simp [Access.selBit]; omega)]
  | write d => rw [if_pos (by simp [Access.selBit]; omega)]; rfl

/-- The W bit lies above every field. -/
theorem toNat_selBit_add_mod (a : Access) (base : BitVec 9) {k : Nat} (hk : k ≤ 8) :
    (a.selBit + base).toNat % 2 ^ k = base.toNat % 2 ^ k := by
  have hsel : a.selBit.toNat % 2 ^ k = 0 := by
    cases a with
    | read => exact Nat.zero_mod _
    | write d => exact Nat.mod_eq_zero_of_dvd (pow_dvd_pow 2 hk)
  rw [BitVec.toNat_add, Nat.mod_mod_of_dvd _ (pow_dvd_pow 2 (Nat.le_succ_of_le hk)), Nat.add_mod, hsel, Nat.zero_add,
    Nat.mod_mod]

/-- What a bus-error row reads of the selector that `encode` writes for it: the access and the free bits (R224). -/
theorem build_errorRow {lo w : Nat} (base : BitVec 9) (make : Access → BitVec w → Instr) (a : Access) (o : BitVec w)
    {off : BitVec 9} (hoff : off = base + BitVec.ofNat 9 (2 ^ lo * o.toNat)) (hw : w + lo ≤ 8 := by decide)
    (hbase : base.toNat % 2 ^ (w + lo) < 2 ^ lo := by decide)
    (hlt : base.toNat + 2 ^ lo * (2 ^ w - 1) < 256 := by decide) :
    make (accessOf (a.selBit + off) a.dataWord) ((a.selBit + off).extractLsb' lo w) = make a o := by
  have hfield : 2 ^ lo * o.toNat ≤ 2 ^ lo * (2 ^ w - 1) := Nat.mul_le_mul_left _ (Nat.le_sub_one_of_lt o.isLt)
  have haccess : off.toNat < 256 := by
    rw [hoff, BitVec.toNat_add, BitVec.toNat_ofNat]
    omega
  rw [accessOf_selBit_add a haccess, hoff, ← BitVec.add_assoc,
    extractLsb'_add_field (Nat.le_succ_of_le hw) ((toNat_selBit_add_mod a base hw).trans_lt hbase)]

/-- The row of format BUS that has an instruction's match and mask in the opcode table. -/
def busRowOf (i : Instr) : Option BusRow :=
  busRows.find? fun row => (row.pattern.toNat, row.mask.toNat) = Encodable.row i

/-- A BUS instruction is read back where its row makes it of the selector and DATA that `encode` writes. -/
theorem decode_encode_of_row {i : Instr} {row : BusRow} {t : BitVec 9} {n : Nat} {d : Word}
    (hrow : busRowOf i = some row) (henc : encode i = .bus t (widthCode n) d) (hbits : Encodable.Statement i)
    (hbuild : row.build t n d = i) (hn : widthWf n = true) : decode (encode i) = .ok i := by
  have hmask : (row.pattern.toNat, row.mask.toNat) = Encodable.row i := by simpa using List.find?_some hrow
  have hsel : row.selects t = true := by
    unfold Encodable.Statement at hbits
    rw [henc, ← hmask] at hbits
    exact beq_iff_eq.2 (BitVec.eq_of_toNat_eq hbits)
  rw [henc, decode_bus_of_selects (List.mem_of_find?_eq_some hrow) hsel, readWidth_widthCode hn, hbuild]

/-- R140, R142: every transaction is read back. -/
theorem decode_encode_transaction {i : Instr} (hbus : i.isOp = false) (h : i.wf = true) :
    decode (encode i) = .ok i := by
  cases i with
  | rCr n => exact decode_encode_of_row rfl rfl (Encodable.rCr n) rfl h
  | wCr n v => exact decode_encode_of_row rfl rfl (Encodable.wCr n v) rfl h
  | rSr n => exact decode_encode_of_row rfl rfl (Encodable.rSr n) rfl h
  | wSr n v => exact decode_encode_of_row rfl rfl (Encodable.wSr n v) rfl h
  | rDin n => exact decode_encode_of_row rfl rfl (Encodable.rDin n) rfl h
  | wDin n w => exact decode_encode_of_row rfl rfl (Encodable.wDin n w) rfl h
  | rDout n => exact decode_encode_of_row rfl rfl (Encodable.rDout n) rfl h
  | wDout n v => exact decode_encode_of_row rfl rfl (Encodable.wDout n v) rfl h
  | rDmacr n => exact decode_encode_of_row rfl rfl (Encodable.rDmacr n) rfl h
  | wDmacr n v => exact decode_encode_of_row rfl rfl (Encodable.wDmacr n v) rfl h
  | rImscr n => exact decode_encode_of_row rfl rfl (Encodable.rImscr n) rfl h
  | wImscr n v => exact decode_encode_of_row rfl rfl (Encodable.wImscr n v) rfl h
  | rRisr n => exact decode_encode_of_row rfl rfl (Encodable.rRisr n) rfl h
  | wRisr n v => exact decode_encode_of_row rfl rfl (Encodable.wRisr n v) rfl h
  | rMisr n => exact decode_encode_of_row rfl rfl (Encodable.rMisr n) rfl h
  | wMisr n v => exact decode_encode_of_row rfl rfl (Encodable.wMisr n v) rfl h
  | rKey n k =>
    exact decode_encode_of_row rfl rfl (Encodable.rKey n k) (congrArg (Instr.rKey n) (index8_indexedSel k)) h
  | wKey n k v =>
    exact decode_encode_of_row rfl rfl (Encodable.wKey n k v) (congrArg (Instr.wKey n · v) (index8_indexedSel k)) h
  | rIv n k =>
    exact decode_encode_of_row rfl rfl (Encodable.rIv n k) (congrArg (Instr.rIv n) (index4_indexedSel k)) h
  | wIv n k v =>
    exact decode_encode_of_row rfl rfl (Encodable.wIv n k v) (congrArg (Instr.wIv n · v) (index4_indexedSel k)) h
  | rCswLo n x =>
    exact decode_encode_of_row rfl rfl (Encodable.rCswLo n x) (congrArg (Instr.rCswLo n) (index4_indexedSel x)) h
  | wCswLo n x v =>
    exact decode_encode_of_row rfl rfl (Encodable.wCswLo n x v) (congrArg (Instr.wCswLo n · v) (index4_indexedSel x)) h
  | rCswHi n x =>
    exact decode_encode_of_row rfl rfl (Encodable.rCswHi n x) (congrArg (Instr.rCswHi n) (index4_indexedSel x)) h
  | wCswHi n x v =>
    exact decode_encode_of_row rfl rfl (Encodable.wCswHi n x v) (congrArg (Instr.wCswHi n · v) (index4_indexedSel x)) h
  | rCsfLo n x =>
    exact decode_encode_of_row rfl rfl (Encodable.rCsfLo n x) (congrArg (Instr.rCsfLo n) (index4_indexedSel x)) h
  | wCsfLo n x v =>
    exact decode_encode_of_row rfl rfl (Encodable.wCsfLo n x v) (congrArg (Instr.wCsfLo n · v) (index4_indexedSel x)) h
  | rCsfHi n x =>
    exact decode_encode_of_row rfl rfl (Encodable.rCsfHi n x) (congrArg (Instr.rCsfHi n) (index4_indexedSel x)) h
  | wCsfHi n x v =>
    exact decode_encode_of_row rfl rfl (Encodable.wCsfHi n x v) (congrArg (Instr.wCsfHi n · v) (index4_indexedSel x)) h
  | busErrUnmapped90 n a o =>
    exact decode_encode_of_row rfl rfl (Encodable.busErrUnmapped90 n a o)
      (build_errorRow (lo := 2) 0x090 (Instr.busErrUnmapped90 n) a o rfl) h
  | busErrUnmappedA0 n a o =>
    exact decode_encode_of_row rfl rfl (Encodable.busErrUnmappedA0 n a o)
      (build_errorRow (lo := 2) 0x0A0 (Instr.busErrUnmappedA0 n) a o rfl) h
  | busErrUnmappedC0 n a o =>
    exact decode_encode_of_row rfl rfl (Encodable.busErrUnmappedC0 n a o)
      (build_errorRow (lo := 2) 0x0C0 (Instr.busErrUnmappedC0 n) a o rfl) h
  | busErrMisalignedOdd n a o =>
    exact decode_encode_of_row rfl rfl (Encodable.busErrMisalignedOdd n a o)
      (build_errorRow (lo := 1) 0x001 (Instr.busErrMisalignedOdd n) a o (ofNat_add_swap _ _)) h
  | busErrMisalignedEven n a o =>
    exact decode_encode_of_row rfl rfl (Encodable.busErrMisalignedEven n a o)
      (build_errorRow (lo := 2) 0x002 (Instr.busErrMisalignedEven n) a o (ofNat_add_swap _ _)) h
  | _ => cases hbus

end Sys2Proof
end

section
/-! Configurations: the fields of `encode(cfg)` of R152, and its inverse (R153). -/

namespace Sys2Proof
open Machine (reservedCr_iff and_mask_and_not)

/-! ### Codes -/

@[simp] theorem Mode.ofCode_code (m : Mode) : Mode.ofCode m.code = some m := by cases m <;> rfl
@[simp] theorem DataWidth.ofCode_code (w : DataWidth) : DataWidth.ofCode w.code = w := by cases w <;> rfl
@[simp] theorem KeySize.ofCode_code (k : KeySize) : KeySize.ofCode k.code = some k := by cases k <;> rfl

theorem Mode.code_of_ofCode {c : BitVec 4} {m : Mode} (h : Mode.ofCode c = some m) : m.code = c := by
  have hall : ∀ c : BitVec 4, (Mode.ofCode c).all (·.code == c) = true := by decide
  simpa [h] using hall c

theorem KeySize.code_of_ofCode {c : BitVec 2} {k : KeySize} (h : KeySize.ofCode c = some k) : k.code = c := by
  have hall : ∀ c : BitVec 2, (KeySize.ofCode c).all (·.code == c) = true := by decide
  simpa [h] using hall c

/-- KEYSIZE = 0b11 alone is reserved (R145). -/
theorem KeySize.ofCode_eq_none_iff (c : BitVec 2) : KeySize.ofCode c = none ↔ c = 0b11 := by revert c; decide

@[simp] theorem DataWidth.code_ofCode (c : BitVec 2) : (DataWidth.ofCode c).code = c := by revert c; decide

theorem code_crDir (bits : Word) : (crDir bits).code = bits.extractLsb' 2 1 := by
  have hbit : bits.extractLsb' 2 1 = BitVec.ofBool (bits.getLsbD 2) := by
    ext i hi
    simp [Nat.lt_one_iff.1 hi]
  rw [hbit, crDir]
  cases bits.getLsbD 2 <;> rfl

/-! ### Reading the word of a configuration -/

theorem extractLsb'_field_same {n lo : Nat} (x : BitVec n) (h : lo + n ≤ 32) :
    (x.setWidth 32 <<< lo).extractLsb' lo n = x := by
  ext i hi
  simp [hi, show lo + i < 32 by omega]

theorem extractLsb'_field_other {k lo lo' n : Nat} (x : BitVec k) (h : lo + n ≤ lo' ∨ lo' + k ≤ lo) :
    (x.setWidth 32 <<< lo').extractLsb' lo n = 0#n := by
  ext i hi
  simpa using fun _ _ _ => BitVec.getLsbD_of_ge x _ (by omega)

theorem modeField_encodeConfig (cfg : EngineConfig) : modeField (encodeConfig cfg) = cfg.mode.code := by
  unfold modeField encodeConfig
  have happend := BitVec.extractLsb'_append_extractLsb' (w := 1) (len := 3) (x := cfg.mode.code)
  simpa [BitVec.extractLsb'_or, extractLsb'_field_same, extractLsb'_field_other] using happend

theorem ksField_encodeConfig (cfg : EngineConfig) : ksField (encodeConfig cfg) = ksCode cfg := by
  unfold ksField encodeConfig
  simp [BitVec.extractLsb'_or, extractLsb'_field_same, extractLsb'_field_other]

theorem crWidth_encodeConfig (cfg : EngineConfig) : crWidth (encodeConfig cfg) = cfg.width := by
  unfold crWidth encodeConfig
  simp [BitVec.extractLsb'_or, extractLsb'_field_same, extractLsb'_field_other]

theorem crDir_encodeConfig (cfg : EngineConfig) : crDir (encodeConfig cfg) = cfg.dir := by
  unfold crDir encodeConfig
  cases cfg.dir <;> simp [Dir.code, Dir.ofBit]

/-- R152, R153: `decode` undoes `encode`. -/
theorem decodeConfig_encodeConfig {cfg : EngineConfig} (h : cfg.wf = true) :
    decodeConfig (encodeConfig cfg) = some cfg := by
  obtain ⟨m, w, ks, d⟩ := cfg
  have hks : ks.isSome = m.isAes := beq_iff_eq.1 h
  unfold decodeConfig
  rw [crMode, modeField_encodeConfig, Mode.ofCode_code, ksField_encodeConfig, crWidth_encodeConfig, crDir_encodeConfig]
  cases ks with
  | none => simp [← hks]
  | some k => simp [← hks, ksCode]

/-! ### Writing back what a word decodes to -/

/-- The codes of what R153 decodes are the fields of the word. -/
theorem codes_of_decodeConfig {bits : Word} {cfg : EngineConfig} (h : decodeConfig bits = some cfg) :
    cfg.mode.code = modeField bits ∧ cfg.width.code = bits.extractLsb' 6 2 ∧ cfg.dir.code = bits.extractLsb' 2 1
      ∧ ksCode cfg = if cfg.mode.isAes = true then ksField bits else 0 := by
  unfold decodeConfig at h
  split at h
  · cases h
  · next m hm =>
    have hmode : m.code = modeField bits := Mode.code_of_ofCode hm
    split at h
    · next hAes =>
      split at h
      · cases h
      · next k hk =>
        cases h
        exact ⟨hmode, DataWidth.code_ofCode _, code_crDir bits, by simp [ksCode, hAes, KeySize.code_of_ofCode hk]⟩
    · next hDes =>
      cases h
      exact ⟨hmode, DataWidth.code_ofCode _, code_crDir bits, by simp [ksCode, hDes]⟩

/-- R153: `encode` writes back every bit that `decode` reads, KEYSIZE for the AES family alone. -/
theorem encodeConfig_of_decodeConfig {bits : Word} {cfg : EngineConfig} (h : decodeConfig bits = some cfg) :
    encodeConfig cfg = bits &&& (if cfg.mode.isAes = true then 0x000803FC else 0x000800FC) := by
  obtain ⟨hmode, hwidth, hdir, hks⟩ := codes_of_decodeConfig h
  have hhigh : (modeField bits).extractLsb' 3 1 = bits.extractLsb' 19 1 := BitVec.extractLsb'_append_eq_left
  have hlow : (modeField bits).extractLsb' 0 3 = bits.extractLsb' 3 3 := BitVec.extractLsb'_append_eq_right
  rw [encodeConfig, hmode, hwidth, hdir, hks, hhigh, hlow, ksField]
  cases cfg.mode.isAes with
  | true =>
    simp only [if_true, shiftLeft_extractLsb', ← BitVec.and_or_distrib_left]
    rfl
  | false =>
    simp only [Bool.false_eq_true, if_false, shiftLeft_extractLsb', ← BitVec.and_or_distrib_left]
    rw [show (0 : BitVec 2).setWidth 32 <<< 8 = bits &&& 0 by simp]
    simp only [← BitVec.and_or_distrib_left]
    rfl

theorem reservedConfig_eq_false_iff (bits : Word) :
    reservedConfig bits = false ↔ ∃ cfg, decodeConfig bits = some cfg := by
  unfold reservedConfig decodeConfig
  cases crMode bits with
  | none => simp
  | some m =>
    cases hAes : m.isAes with
    | false => simp [hAes]
    | true =>
      cases hk : KeySize.ofCode (ksField bits) with
      | none => simp [hAes, (KeySize.ofCode_eq_none_iff _).1 hk]
      | some k =>
        have hks : ¬ksField bits = 3#2 := fun e => by simp [(KeySize.ofCode_eq_none_iff _).2 e] at hk
        simp [hAes, hks]

/-- Settles O6: the words without a reserved value are those that decode, and `encode` writes such words only. -/
theorem configurationsEncodeAndDecode : Obligations.ConfigurationsEncodeAndDecode := by
  unfold Obligations.ConfigurationsEncodeAndDecode
  constructor
  · intro cfg hwf
    have hdec := decodeConfig_encodeConfig hwf
    refine ⟨hdec, ?_, ?_⟩
    · rw [reservedCr_iff, Bool.not_eq_true, reservedConfig_eq_false_iff]
      exact ⟨cfg, hdec⟩
    · rw [encodeConfig_of_decodeConfig hdec]
      split
      · exact and_mask_and_not _ _
      · rw [BitVec.and_assoc]; exact BitVec.and_zero
  · intro bits hlegal
    rw [reservedCr_iff, Bool.not_eq_true, reservedConfig_eq_false_iff] at hlegal
    obtain ⟨cfg, hdec⟩ := hlegal
    exact ⟨cfg, hdec, wf_of_decodeConfig hdec, encodeConfig_of_decodeConfig hdec⟩

end Sys2Proof
end

section
/-! Format OP: each operation's argument record is read back, and the reserved codes are refused (R148, R155, R160). -/

namespace Sys2Proof

/-! ### Argument words -/

@[simp] theorem readPairs_pairWords (key : List WordPair) : readPairs (pairWords key) = key := by
  induction key with
  | nil => rfl
  | cons p ps ih => rw [pairWords, readPairs, ih]

theorem readPhase_code (p : Phase) : readPhase (p.code.setWidth 32) = p := by cases p <;> rfl

theorem readBool_boolWord (b : Bool) : readBool (boolWord b) = b := by cases b <;> rfl

/-- The two Booleans of setInterruptMask stand at bits 0 and 1 (R50). -/
theorem getLsbD_maskWord (i o : Bool) :
    (boolWord i ||| (boolWord o <<< 1)).getLsbD 0 = i ∧ (boolWord i ||| (boolWord o <<< 1)).getLsbD 1 = o := by
  cases i <;> cases o <;> decide

/-! ### Snapshots -/

theorem exists_four_words (v : Vector Word 4) : ∃ a b c d, v = #v[a, b, c, d] :=
  ⟨v[0], v[1], v[2], v[3], by ext i hi; interval_cases i <;> rfl⟩

theorem exists_eight_words (v : Vector Word 8) : ∃ a b c d e f g h, v = #v[a, b, c, d, e, f, g, h] :=
  ⟨v[0], v[1], v[2], v[3], v[4], v[5], v[6], v[7], by ext i hi; interval_cases i <;> rfl⟩

/-- R160: the words of restore's first argument lay it out, whatever follows them. -/
theorem readSnapshot_snapshotArgWords {snap : Option ContextSnapshot} (h : snap.all ContextSnapshot.wf = true)
    (rest : List Word) : readSnapshot (snapshotArgWords snap ++ rest) = snap := by
  cases snap with
  | none => rfl
  | some snap =>
    obtain ⟨id, cfgBits, iv, ctx⟩ := snap
    have hid : (BitVec.ofNat 32 id).toNat = id := Nat.mod_eq_of_lt (of_decide_eq_true h)
    obtain ⟨_, _, _, _, rfl⟩ := exists_four_words iv
    cases ctx with
    | none =>
      conv_rhs => rw [← hid]
      rfl
    | some ctx =>
      obtain ⟨working, final⟩ := ctx
      obtain ⟨_, _, _, _, _, _, _, _, rfl⟩ := exists_eight_words working
      obtain ⟨_, _, _, _, _, _, _, _, rfl⟩ := exists_eight_words final
      conv_rhs => rw [← hid]
      rfl

theorem length_snapshotArgWords (snap : Option ContextSnapshot) : (snapshotArgWords snap).length = 23 := by
  cases snap with
  | none => rfl
  | some snap => cases h : snap.ctx <;> simp [snapshotArgWords, snapshotWords, h]

/-- R155: every operation is read back. -/
theorem decode_encode_operation {i : Instr} (hop : i.isOp = true) (h : i.wf = true) : decode (encode i) = .ok i := by
  cases i with
  | configure cfg =>
    change parseConfigure [encodeConfig cfg] = _
    rw [parseConfigure, show argWord [encodeConfig cfg] 0 = encodeConfig cfg from rfl, decodeConfig_encodeConfig h]
  | loadKey key => exact congrArg (Except.ok ∘ Instr.loadKey) (readPairs_pairWords key)
  | setPhase p => exact congrArg (Except.ok ∘ Instr.setPhase) (readPhase_code p)
  | setInputDMA b => exact congrArg (Except.ok ∘ Instr.setInputDMA) (readBool_boolWord b)
  | setOutputDMA b => exact congrArg (Except.ok ∘ Instr.setOutputDMA) (readBool_boolWord b)
  | setInterruptMask i o =>
    obtain ⟨hi, ho⟩ := getLsbD_maskWord i o
    exact congrArg₂ (fun a b => Except.ok (Instr.setInterruptMask a b)) hi ho
  | restore snap key =>
    have hkey : (snapshotArgWords snap ++ pairWords key).drop 23 = pairWords key :=
      List.drop_left' (length_snapshotArgWords snap)
    change Except.ok (Instr.restore (readSnapshot (snapshotArgWords snap ++ pairWords key))
      (readPairs ((snapshotArgWords snap ++ pairWords key).drop 23))) = _
    rw [readSnapshot_snapshotArgWords h, hkey, readPairs_pairWords]
  | opReserved20 r => revert r; decide
  | opReserved24 r => revert r; decide
  | loadIV | flushFIFOs | enable | disable | isBusy | pushWord | popWord | inputNotFull | inputEmpty | outputNotEmpty
  | outputFull | save | readInterruptStatus => rfl
  | _ => cases hop

/-- Settles O1: the transactions are read back row by row, the operations by their argument records. -/
theorem decodeOfEncodeGivesTheInstruction : Obligations.DecodeOfEncodeGivesTheInstruction := by
  unfold Obligations.DecodeOfEncodeGivesTheInstruction
  intro i h
  cases hi : i.isOp with
  | true => exact decode_encode_operation hi h
  | false => exact decode_encode_transaction hi h

/-- Settles O4, by evaluating the decoder on each word. -/
theorem handWrittenWordsDecode : Obligations.HandWrittenWordsDecode := by
  unfold Obligations.HandWrittenWordsDecode
  exact ⟨rfl, rfl, rfl, rfl, rfl, rfl, rfl, rfl, rfl, rfl, rfl⟩

/-! ### Reserved operations -/

theorem exec_opReserved20 (r : BitVec 2) (s : Machine.State) :
    Machine.exec (.opReserved20 r) s = .refused .reservedOperation := rfl

theorem exec_opReserved24 (r : BitVec 3) (s : Machine.State) :
    Machine.exec (.opReserved24 r) s = .refused .reservedOperation := rfl

/-- The codes 20 to 23 and 24 to 31 are the two rows OP-RESERVED (R148 (d)). -/
theorem decode_reserved {c : BitVec 5} (h : 20 ≤ c.toNat) (args : List Word) :
    (∃ r, decode (.op c args) = .ok (.opReserved20 r)) ∨ ∃ r, decode (.op c args) = .ok (.opReserved24 r) := by
  change (∃ r, parseOp c args = _) ∨ ∃ r, parseOp c args = _
  unfold parseOp
  split
  case h_21 | h_22 | h_23 | h_24 => exact .inl ⟨_, rfl⟩
  case h_25 => exact .inr ⟨_, rfl⟩
  all_goals omega

/-- Settles O5: the codes decode to the two reserved rows, which `exec` refuses in every state. -/
theorem reservedOperationsAreRefused : Obligations.ReservedOperationsAreRefused := by
  unfold Obligations.ReservedOperationsAreRefused
  refine ⟨fun c args h => ?_, exec_opReserved20, exec_opReserved24⟩
  obtain ⟨r, hr⟩ | ⟨r, hr⟩ := decode_reserved h args
  · exact ⟨_, hr, exec_opReserved20 r⟩
  · exact ⟨_, hr, exec_opReserved24 r⟩

end Sys2Proof
end

section
/-! The host's pseudo-instructions, one host step at a time (R158). -/

namespace Sys2Proof.Machine

variable {s : State} {ps : List Line}

theorem hostAction_line {l : Line} (hp : s.prog = l :: ps) : hostAction s = lineAction l { s with prog := ps } := by
  unfold hostAction
  rw [hp]

/-- The host's next line comes to a record: the step runs what the record decodes to. -/
theorem step_line_record {l : Line} (h : s.sched = []) (hp : s.prog = l :: ps) {r : Record} {t : State}
    (hl : lineAction l { s with prog := ps } = runRecord r t) {i : Instr} (hd : decode r = .ok i) :
    step s = exec i t := by
  have hrun : hostAction s = .run i t := by
    rw [hostAction_line hp, hl, runRecord, hd]
  exact step_host_unscheduled h hrun

/-- The host's next line is a step of its own, without a transaction. -/
theorem step_line_moved {l : Line} (h : s.sched = []) (hp : s.prog = l :: ps) {t : State}
    (hl : lineAction l { s with prog := ps } = .moved t) : step s = .next t := by
  unfold step nextAction
  rw [h]
  dsimp only
  rw [hostAction_line hp, hl]

theorem lastRead_eq {x : Word} (h : s.reads.getLast? = some x) : s.lastRead = x := by
  unfold State.lastRead
  rw [List.getLastD_eq_getLast?, h]
  rfl

theorem step_poll_read {m v : Word} {left : Nat} (h : s.sched = []) (hp : s.prog = .poll 0x04 m v (left + 1) :: ps) :
    step s = .next { s with prog := .pollTest 0x04 m v left s.reads.length :: ps, reads := s.reads ++ [s.srWord] } := by
  rw [step_line_record h hp (r := readRecord 0x04) (i := .rSr 4) rfl rfl, exec_rSr]
  rfl

theorem step_poll_exhausted {off : BitVec 8} {m v : Word} (h : s.sched = []) (hp : s.prog = .poll off m v 0 :: ps) :
    step s = .next { s with prog := ps, oks := s.oks ++ [false] } :=
  step_line_moved h hp rfl

/-- The test of the value just read ends the poll with `ok`, or leaves one read less. -/
theorem step_pollTest {off : BitVec 8} {m v : Word} {left : Nat} (h : s.sched = []) (x : Word) :
    step { s with prog := .pollTest off m v left s.reads.length :: ps, reads := s.reads ++ [x] } =
      .next (if x &&& m = v then { s with prog := ps, reads := s.reads ++ [x], oks := s.oks ++ [true] }
        else { s with prog := .poll off m v left :: ps, reads := s.reads ++ [x] }) := by
  refine step_line_moved ?_ rfl ?_
  · exact h
  have hlast : ({ s with prog := ps, reads := s.reads ++ [x] } : State).lastRead = x :=
    lastRead_eq (by simp)
  unfold lineAction
  dsimp only
  rw [hlast]
  by_cases hx : x &&& m = v <;> simp [hx, State.bindOk]

theorem run_succ (M : Host.Core) {s t : M.State} (k : Nat) (h : M.step s = .next t) : M.run (k + 1) s = M.run k t := by
  rw [Host.Core.run, h]

theorem run_poll_match {m v : Word} {n : Nat} (h : s.sched = []) (hp : s.prog = .poll 0x04 m v n :: ps)
    (hv : s.srWord &&& m = v) (hn : 1 ≤ n) : Host.Core.run Sys2Proof.core 2 s
      = .next { s with prog := ps, reads := s.reads ++ [s.srWord], oks := s.oks ++ [true] } := by
  obtain ⟨left, rfl⟩ := Nat.exists_eq_add_of_le' hn
  have htest := step_pollTest (off := 0x04) (m := m) (v := v) (left := left) (ps := ps) h s.srWord
  rw [if_pos hv] at htest
  exact (run_succ core 1 (step_poll_read h hp)).trans (run_succ core 0 htest)

theorem run_poll_noMatch {m v : Word} {n : Nat} (h : s.sched = []) (hp : s.prog = .poll 0x04 m v n :: ps)
    (hv : s.srWord &&& m ≠ v) : Host.Core.run Sys2Proof.core (2 * n + 1) s
      = .next { s with
          prog := ps, reads := s.reads ++ List.replicate n s.srWord, oks := s.oks ++ [false] } := by
  induction n generalizing s with
  | zero =>
    rw [List.replicate_zero, List.append_nil]
    exact run_succ core 0 (step_poll_exhausted h hp)
  | succ left ih =>
    have htest := step_pollTest (off := 0x04) (m := m) (v := v) (left := left) (ps := ps) h s.srWord
    rw [if_neg hv] at htest
    rw [List.replicate_succ, List.append_cons]
    calc Host.Core.run core (2 * left + 3) s
      _ = _ := run_succ core (2 * left + 2) (step_poll_read h hp)
      _ = _ := run_succ core (2 * left + 1) htest
      _ = _ := ih h rfl hv

/-- Settles O8: each line comes to the record of its transaction; a poll is an induction on the reads left. -/
theorem pseudoInstructionsAreTheirExpansions : Obligations.PseudoInstructionsAreTheirExpansions := by
  unfold Obligations.PseudoInstructionsAreTheirExpansions
  constructor
  · intro s off m ps i h hread
    refine ⟨fun hp => step_line_record h hp rfl hread, fun hp => step_line_record h hp rfl hread, fun x j hx => ?_⟩
    have hlast : ({ s with prog := ps } : State).lastRead = x := lastRead_eq hx
    rw [← hlast]
    exact ⟨fun hwrite hp => step_line_record h hp rfl hwrite, fun hwrite hp => step_line_record h hp rfl hwrite⟩
  · intro s m v n ps h hp
    exact ⟨run_poll_match h hp, run_poll_noMatch h hp⟩

end Sys2Proof.Machine
end

section
/-! The CR write as one equation for its checks and one for its effects (R201). -/

namespace Sys2Proof.Machine

variable (s : State)

/-! ### Fields of the stored value -/

@[simp] theorem crypen_crStored (v : Word) : crypen (crStored v) = v.getLsbD 15 := by
  unfold crypen
  rw [crStored_eq, BitVec.getLsbD_and, show (0x000B83FC : Word).getLsbD 15 = true from rfl, Bool.and_true]

@[simp] theorem ksField_crStored (v : Word) : ksField (crStored v) = ksField v := by
  rw [crStored_eq]
  exact extractLsb'_and_of_allOnes rfl

/-- GCM_CCMPH fills its mask: two words agree under it exactly when the field agrees (R32). -/
theorem phaseField_eq_iff (a b : Word) : phaseField a = phaseField b ↔ a &&& phMask = b &&& phMask := by
  have hfield : ∀ w : Word, (phaseField w).setWidth 32 <<< 16 = w &&& phMask := fun w => shiftLeft_extractLsb' w 16 2
  have hmask : ∀ w : Word, phaseField (w &&& phMask) = phaseField w := fun w => extractLsb'_and_of_allOnes rfl
  constructor
  · intro h
    rw [← hfield a, h, hfield b]
  · intro h
    rw [← hmask a, h, hmask b]

theorem phaseField_eq_crStored_iff (c v : Word) :
    phaseField c = phaseField (crStored v) ↔ c &&& 0x00030000 = v &&& 0x00030000 := by
  rw [phaseField_eq_iff, crStored_phase]
  rfl

/-- A legal CR is what writing it back would store (R39, R201). -/
theorem crStored_of_crLegal {c : Word} (h : crLegal c) : crStored c = c := by
  obtain ⟨hbits, _⟩ := h
  have hsplit := and_add_and c (m := 0x000B83FC) (k := ~~~0x000B83FC) (BitVec.and_not_self _)
  have hzero : c &&& ~~~0x000B83FC = 0 := hbits
  have hall : (0x000B83FC : Word) ||| ~~~0x000B83FC = BitVec.allOnes 32 := rfl
  rw [hzero, hall, BitVec.and_allOnes] at hsplit
  rw [crStored_eq]
  exact (BitVec.add_zero _).symm.trans hsplit

/-! ### The checks -/

/-- The four checks of R201 in their order, over the stored value. -/
theorem crFault_eq (v : Word) : crFault v s =
    if reservedCr (v &&& 0x000B83FC) then some .reservedConfig
    else if s.activeNow ∧ s.cr &&& 0x000803FC ≠ v &&& 0x000B83FC &&& 0x000803FC then some .configWhileActive
    else if s.activeNow ∧ s.cr &&& 0x00030000 ≠ v &&& 0x000B83FC &&& 0x00030000 then some .phaseWhileActive
    else if v.getLsbD 14 = true ∧ s.busy = true then some .flushWhileBusy
    else none := by
  simp only [crFault, reservedCr_iff, ← active_iff, crStored_eq, Bool.and_eq_true, bne_iff_ne]
  rfl

theorem exec_wCr_fault {v : Word} {k : FaultKind} (h : crFault v s = some k) :
    exec (.wCr 4 v) s = .next (s.raiseFault k) := by
  have hrow : rowWCr v s = .fault k := by unfold rowWCr; rw [h]
  exact congrArg Host.Outcome.next (hostTransaction_fault s hrow)

/-- Settles O21: each clause is one branch of the checks. -/
theorem crWriteFaultsInOrder : Obligations.CrWriteFaultsInOrder := by
  unfold Obligations.CrWriteFaultsInOrder
  intro s v new cfgDiffers phaseDiffers
  refine ⟨fun hres => ?_, fun hok hact hcfg => ?_, fun hok hact hcfg hph => ?_, fun hok hpass hflush hbusy => ?_⟩ <;>
    refine exec_wCr_fault s ?_ <;> rw [crFault_eq]
  · exact if_pos hres
  · rw [if_neg hok, if_pos ⟨hact, hcfg⟩]
  · rw [if_neg hok, if_neg (fun h => hcfg h.2), if_pos ⟨hact, hph⟩]
  · rw [if_neg hok, if_neg (fun h => hpass ⟨h.1, .inl h.2⟩), if_neg (fun h => hpass ⟨h.1, .inr h.2⟩),
      if_pos ⟨hflush, hbusy⟩]

/-! ### The effects -/

/-- The state of a CR write before its last act: the abort of the pass in flight, where CRYPEN is cleared (R201, R277). -/
def crAborted (v : Word) : State :=
  if crypen s.cr = true ∧ crypen (crStored v) = false ∧ s.busy = true then abortPass s else s

/-- The effects of R201 in one update: what is stored, flushed and cleared after the abort and before the pass without
input. -/
theorem crApply_eq (v : Word) : crApply v s = startZeroInputPass s.cr (crStored v) { crAborted s v with
    cr := v &&& 0x000B83FC
    inQ := if v.getLsbD 14 = true then [] else (crAborted s v).inQ
    outQ := if v.getLsbD 14 = true then [] else (crAborted s v).outQ
    decKeyReady := if ksField s.cr = ksField v then (crAborted s v).decKeyReady else false
    finalDone := if s.cr &&& 0x00030000 = v &&& 0x00030000 then (crAborted s v).finalDone else false } := by
  have habort : (if crypen s.cr && !crypen (crStored v) && s.busy then abortPass s else s) = crAborted s v := by
    unfold crAborted
    simp only [Bool.and_eq_true, Bool.not_eq_true', and_assoc]
  unfold crApply
  dsimp only
  rw [habort, ← crStored_eq]
  simp only [← phaseField_eq_crStored_iff]
  congr 1
  cases v.getLsbD 14 <;> by_cases hk : ksField s.cr = ksField v <;>
    by_cases hp : phaseField s.cr = phaseField (crStored v) <;> simp [hk, hp]

/-- What the abort of a CR write can change (R277). -/
theorem crAborted_frame (v : Word) : crAborted s v = { s with
    iv := (crAborted s v).iv, csw := (crAborted s v).csw, csf := (crAborted s v).csf
    busy := (crAborted s v).busy, pass := (crAborted s v).pass, inflight := (crAborted s v).inflight
    decKeyReady := (crAborted s v).decKeyReady, events := (crAborted s v).events, draws := (crAborted s v).draws } := by
  unfold crAborted
  split
  · unfold abortPass
    split <;> rfl
  · rfl

/-- What the start of a pass without input can change (R278). -/
theorem startZeroInputPass_changes (old new : Word) : startZeroInputPass old new s = { s with
    busy := (startZeroInputPass old new s).busy, pass := (startZeroInputPass old new s).pass
    inflight := (startZeroInputPass old new s).inflight, decKeyReady := (startZeroInputPass old new s).decKeyReady
    events := (startZeroInputPass old new s).events } := by
  unfold startZeroInputPass
  split_ifs <;> rfl

/-- The start of a pass without input never prepares a key (R278). -/
theorem startZeroInputPass_unprepared (old new : Word) (h : s.decKeyReady = false) :
    (startZeroInputPass old new s).decKeyReady = false := by
  unfold startZeroInputPass
  split_ifs <;> simp [h]

/-- What a CR write that passes every check stores, flushes and clears, and what else it can change (R201). -/
theorem crApply_changes (v : Word) : crApply v s = { s with
    cr := v &&& 0x000B83FC
    inQ := if v.getLsbD 14 = true then [] else s.inQ
    outQ := if v.getLsbD 14 = true then [] else s.outQ
    finalDone := if s.cr &&& 0x00030000 = v &&& 0x00030000 then s.finalDone else false
    decKeyReady := (crApply v s).decKeyReady, iv := (crApply v s).iv, csw := (crApply v s).csw
    csf := (crApply v s).csf, busy := (crApply v s).busy, pass := (crApply v s).pass
    inflight := (crApply v s).inflight, events := (crApply v s).events, draws := (crApply v s).draws } := by
  rw [crApply_eq, startZeroInputPass_changes, crAborted_frame]

/-- A new KEYSIZE makes the prepared key useless (R201). -/
theorem crApply_unprepared {v : Word} (h : ksField s.cr ≠ ksField v) : (crApply v s).decKeyReady = false := by
  rw [crApply_eq]
  exact startZeroInputPass_unprepared _ _ _ (if_neg h)

/-- Where CRYPEN does not go from 1 to 0 nothing is aborted (R201). -/
theorem crAborted_eq_self {v : Word} (h : crypen s.cr = false ∨ v.getLsbD 15 = true) : crAborted s v = s := by
  refine if_neg ?_
  rintro ⟨hold, hnew, _⟩
  rw [crypen_crStored] at hnew
  rcases h with h | h
  · exact absurd (h.symm.trans hold) nofun
  · exact absurd (h.symm.trans hnew) nofun

/-- Settles O22: the changes of a legal CR write, one clause each. -/
theorem crWriteStoresAndFlushes : Obligations.CrWriteStoresAndFlushes := by
  unfold Obligations.CrWriteStoresAndFlushes
  intro s v hlegal
  obtain ⟨es, hes⟩ := (crApply_frame s v).events
  refine ⟨_, exec_wCr_legal s hlegal, ?frame, ?prepared, ?running, ?history⟩
  case frame =>
    rw [notifyCheck_eq]
    exact congrArg (fun t : State => { t with events := (crApply v s).events ++ notifications s (crApply v s) })
      (crApply_changes s v)
  case prepared =>
    intro hks
    rw [notifyCheck_decKeyReady]
    exact crApply_unprepared s hks
  case running =>
    intro hb hen
    have habort : crAborted s v = s := crAborted_eq_self s (.inr hen)
    simp only [notifyCheck_iv, notifyCheck_csw, notifyCheck_csf, notifyCheck_busy, notifyCheck_pass, notifyCheck_inflight]
    rw [crApply_eq, startZeroInputPass_busy, habort]
    · exact ⟨rfl, rfl, rfl, hb, rfl, rfl⟩
    · rw [habort]; exact hb
  case history =>
    exact ⟨es ++ notifications s (crApply v s), by rw [notifyCheck_events, hes, List.append_assoc]⟩

/-- Settles O25: the value is legal, is stored as it stands, and no condition goes from false to true. -/
theorem rewritingCrChangesNothing : Obligations.RewritingCrChangesNothing := by
  unfold Obligations.RewritingCrChangesNothing
  intro s h
  have hstored : crStored s.cr = s.cr := crStored_of_crLegal h.cr_legal
  have hnoflush : s.cr.getLsbD 14 = false := by
    rw [← hstored, crStored_eq, BitVec.getLsbD_and]
    exact Bool.and_false _
  have hlegal : crWriteLegal s.cr s := by
    refine ⟨?_, fun _ => ⟨rfl, rfl⟩, fun hf => by rw [hnoflush] at hf; exact absurd hf.1 nofun⟩
    rw [← crStored_eq, hstored, reservedCr_iff, h.cr_legal.2]
    exact nofun
  have habort : crAborted s s.cr = s := crAborted_eq_self s (Bool.eq_false_or_eq_true _).symm
  have happly : crApply s.cr s = s := by
    rw [crApply_eq, hstored, startZeroInputPass_same, habort, hnoflush, if_pos rfl, if_pos rfl, ← crStored_eq, hstored]
    rfl
  rw [exec_wCr_legal s hlegal, happly, notifyCheck_self]

end Sys2Proof.Machine
end

section
/-! The register transactions, one equation for each row and case: what is stored, returned or raised, and nothing else
(R200 to R223). -/

namespace Sys2Proof.Machine

variable (s : State)

/-! ### Rows by the shape of their effect -/

section
variable {row : Row} {t : State}

/-- A write row that leaves alone what MISR is computed from notifies nothing. -/
theorem hostTransaction_quietWrite (h : row s = .done t none) (hi : t.imscr = s.imscr := by rfl)
    (hp : t.params = s.params := by rfl) (hq : t.inQ = s.inQ := by rfl) (ho : t.outQ = s.outQ := by rfl) :
    hostTransaction 4 row s = t := by
  rw [hostTransaction_write s h, notifyCheck_eq_self hi hp hq ho]

/-- A read row that draws a free word (log entry 5). -/
theorem hostTransaction_draw (h : row s = .done s.draw.2 (some s.draw.1)) :
    hostTransaction 4 row s = { s with reads := s.reads ++ [Config.draw s.draws], draws := s.draws + 1 } := by
  have hquiet : notifyCheck s s.draw.2 = s.draw.2 := notifyCheck_eq_self rfl rfl rfl rfl
  rw [hostTransaction_read s h, hquiet]
  rfl

/-- A read of a register that a pass in flight hides: `x` while idle and a free word while busy (R218, R220, R222). -/
def State.readShielded (x : Word) (s : State) : State :=
  if s.busy then { s with reads := s.reads ++ [Config.draw s.draws], draws := s.draws + 1 }
  else { s with reads := s.reads ++ [x] }

theorem State.readShielded_idle (x : Word) (h : s.busy = false) :
    s.readShielded x = { s with reads := s.reads ++ [x] } := by
  rw [State.readShielded, h]
  rfl

theorem State.readShielded_busy (x : Word) (h : s.busy = true) :
    s.readShielded x = { s with reads := s.reads ++ [Config.draw s.draws], draws := s.draws + 1 } := by
  rw [State.readShielded, h]
  rfl

theorem hostTransaction_readShielded {x : Word}
    (h : row s = if s.busy then .done s.draw.2 (some s.draw.1) else .done s (some x)) :
    hostTransaction 4 row s = s.readShielded x := by
  cases hb : s.busy <;> rw [hb] at h
  case false => rw [s.readShielded_idle x hb, hostTransaction_readOnly s h]
  case true => rw [s.readShielded_busy x hb, hostTransaction_draw s h]

/-- A row that stores while idle and faults while busy (R217, R219, R221, R223). -/
theorem hostTransaction_writeShielded {k : FaultKind} (h : row s = if s.busy then .fault k else .done t none)
    (hi : t.imscr = s.imscr := by rfl) (hp : t.params = s.params := by rfl) (hq : t.inQ = s.inQ := by rfl)
    (ho : t.outQ = s.outQ := by rfl) :
    hostTransaction 4 row s = if s.busy then s.raiseFault k else t := by
  cases hb : s.busy <;> rw [hb] at h
  case false => exact hostTransaction_quietWrite s h hi hp hq ho
  case true => exact hostTransaction_fault s h

end

/-! ### CR, DMACR, IMSCR and the writes without effect -/

theorem exec_wDout (v : Word) : exec (.wDout 4 v) s = .next s :=
  congrArg Host.Outcome.next (hostTransaction_noEffect s (row := rowWDout v) rfl)

/-- Settles O9: the row of each of the four registers answers the state it runs on. -/
theorem writesToReadOnlyRegistersDoNothing : Obligations.WritesToReadOnlyRegistersDoNothing := by
  unfold Obligations.WritesToReadOnlyRegistersDoNothing
  exact fun s v => ⟨⟨rfl, exec_wSr s v⟩, ⟨rfl, exec_wDout s v⟩, ⟨rfl, exec_wRisr s v⟩, ⟨rfl, exec_wMisr s v⟩⟩

theorem exec_rCr : exec (.rCr 4) s = .next { s with reads := s.reads ++ [s.cr] } :=
  congrArg Host.Outcome.next (hostTransaction_readOnly s (row := rowRCr) rfl)

theorem exec_rDmacr : exec (.rDmacr 4) s = .next { s with reads := s.reads ++ [s.dmacr] } :=
  congrArg Host.Outcome.next (hostTransaction_readOnly s (row := rowRDmacr) rfl)

theorem exec_rImscr : exec (.rImscr 4) s = .next { s with reads := s.reads ++ [s.imscr] } :=
  congrArg Host.Outcome.next (hostTransaction_readOnly s (row := rowRImscr) rfl)

/-- Settles O10: the three reads answer the stored value, of which the invariant says which bits are 0. -/
theorem storedRegistersReadBack : Obligations.StoredRegistersReadBack := by
  unfold Obligations.StoredRegistersReadBack
  exact fun s => ⟨⟨rfl, exec_rCr s⟩, ⟨rfl, exec_rDmacr s⟩, ⟨rfl, exec_rImscr s⟩,
    fun h => ⟨h.cr_legal.1, h.dmacr_legal, h.imscr_legal, h.busy_enabled⟩⟩

theorem exec_wDmacr (v : Word) : exec (.wDmacr 4 v) s = .next { s with dmacr := v &&& 3 } :=
  congrArg Host.Outcome.next (hostTransaction_quietWrite s (row := rowWDmacr v) rfl)

theorem exec_wImscr (v : Word) : exec (.wImscr 4 v) s =
    .next { s with imscr := v &&& 3, events := s.events ++ notifications s { s with imscr := v &&& 3 } } := by
  have h := hostTransaction_write s (row := rowWImscr v) rfl
  rw [notifyCheck_eq] at h
  exact congrArg Host.Outcome.next h

@[simp] theorem dien_and_three (v : Word) : dien (v &&& 3) = v.getLsbD 0 := by
  unfold dien
  rw [BitVec.getLsbD_and, show (3 : Word).getLsbD 0 = true from rfl, Bool.and_true]

@[simp] theorem doen_and_three (v : Word) : doen (v &&& 3) = v.getLsbD 1 := by
  unfold doen
  rw [BitVec.getLsbD_and, show (3 : Word).getLsbD 1 = true from rfl, Bool.and_true]

/-- DMA-in does nothing while DIEN is 0 (R280). -/
theorem dmaInStep_detached (h : dien s.dmacr = false) : dmaInStep s = none := by
  by_contra hne
  obtain ⟨t, ht⟩ := Option.ne_none_iff_exists'.1 hne
  obtain ⟨_, _, hen, _⟩ := dmaInStep_some s ht
  exact absurd (hen.symm.trans h) nofun

/-- DMA-out does nothing while DOEN is 0 (R281). -/
theorem dmaOutStep_detached (h : doen s.dmacr = false) : dmaOutStep s = none := by
  by_contra hne
  obtain ⟨t, ht⟩ := Option.ne_none_iff_exists'.1 hne
  obtain ⟨_, _, hen, _⟩ := dmaOutStep_some s ht
  exact absurd (hen.symm.trans h) nofun

/-- MINMIS is IFNF under the mask's bit 0 (R52). -/
theorem misrBit_input : s.misrBit .input = (s.ifnf && s.imscr.getLsbD 0) := by
  change s.misrWord.getLsbD 0 = _
  unfold State.misrWord
  rw [BitVec.getLsbD_and, BitVec.getLsbD_and, risrWord_bit0, show lowTwoMask.getLsbD 0 = true from rfl, Bool.and_true]

/-- Unmasking the input interrupt of a FIFO with room notifies at once (R211, R282). -/
theorem notify_mem_of_unmask {v : Word} (hroom : s.inQ.length < s.params.inDepth) (hold : s.imscr.getLsbD 0 = false)
    (hnew : v.getLsbD 0 = true) : .notify .input true ∈ notifications s { s with imscr := v &&& 3 } := by
  have hbefore : s.misrBit .input = false := by rw [misrBit_input, hold, Bool.and_false]
  have hafter : ({ s with imscr := v &&& 3 } : State).misrBit .input = true := by
    rw [misrBit_input]
    exact Bool.and_eq_true_iff.2 ⟨decide_eq_true hroom, (dien_and_three v).trans hnew⟩
  unfold notifications
  rw [hbefore, hafter, if_neg nofun]
  exact List.mem_append_left _ (List.mem_singleton_self _)

/-- Settles O12: the two writes, the two DMA steps that a cleared bit disables, and the bit that unmasking raises. -/
theorem dmaEnableAndInterruptMaskWrites : Obligations.DmaEnableAndInterruptMaskWrites := by
  unfold Obligations.DmaEnableAndInterruptMaskWrites
  intro s v
  refine ⟨⟨rfl, exec_wDmacr s v⟩, fun h u hu => ?_, fun h u hu => ?_, ⟨rfl, exec_wImscr s v⟩, notify_mem_of_unmask s⟩
  · exact dmaInStep_detached u (by rw [hu, dien_and_three, h])
  · exact dmaOutStep_detached u (by rw [hu, doen_and_three, h])

/-! ### The reads of the write-only ports -/

theorem exec_rDin : exec (.rDin 4) s =
    .next { s with reads := s.reads ++ [Config.draw s.draws], draws := s.draws + 1 } :=
  congrArg Host.Outcome.next (hostTransaction_draw s (row := rowRDin) rfl)

theorem exec_rKey (k : Fin 8) : exec (.rKey 4 k) s =
    .next { s with reads := s.reads ++ [Config.draw s.draws], draws := s.draws + 1 } :=
  congrArg Host.Outcome.next (hostTransaction_draw s (row := rowRKey k) rfl)

/-- Settles O13: the word drawn depends on the count of draws alone, which no FIFO or key changes. -/
theorem readsOfWriteOnlyPortsReturnAFreeWord : Obligations.ReadsOfWriteOnlyPortsReturnAFreeWord := by
  unfold Obligations.ReadsOfWriteOnlyPortsReturnAFreeWord
  exact fun s k => ⟨⟨_, _, exec_rDin s, fun q => exec_rDin { s with inQ := q }⟩,
    ⟨_, _, exec_rKey s k, fun key => exec_rKey { s with key := key } k⟩⟩

/-! ### DIN writes and DOUT reads -/

theorem exec_wDin_full (w : Word) (h : s.inQ.length = s.params.inDepth) :
    exec (.wDin 4 w) s = .next (s.raiseFault .inFifoOverrun) :=
  congrArg Host.Outcome.next (hostTransaction_fault s (row := rowWDin w) (if_pos h))

theorem exec_wDin (w : Word) (h : s.inQ.length ≠ s.params.inDepth) : exec (.wDin 4 w) s =
    .next { s with inQ := s.inQ ++ [w], events := s.events ++ notifications s { s with inQ := s.inQ ++ [w] } } := by
  have hw := hostTransaction_write s (row := rowWDin w) (if_neg h)
  rw [notifyCheck_eq] at hw
  exact congrArg Host.Outcome.next hw

/-- Settles O14: a full FIFO faults; otherwise the FIFO holds one word more, and so it is not empty. -/
theorem dinWritePushesOrOverruns : Obligations.DinWritePushesOrOverruns := by
  unfold Obligations.DinWritePushesOrOverruns
  refine fun s w => ⟨rfl, exec_wDin_full s w, fun h => ⟨_, exec_wDin s w h, rfl, ?_, fun hle => ?_⟩⟩
  · rw [srWord_bit0]
    simp [State.ifem]
  · simp only [srWord_bit1, State.ifnf, List.length_append, List.length_singleton, decide_eq_decide]
    omega

theorem exec_rDout_empty (h : s.outQ = []) : exec (.rDout 4) s = .next (s.raiseFault .outFifoUnderrun) := by
  have hrow : rowRDout s = .fault .outFifoUnderrun := by unfold rowRDout; rw [h]
  exact congrArg Host.Outcome.next (hostTransaction_fault s hrow)

theorem exec_rDout {w : Word} {q : List Word} (h : s.outQ = w :: q) : exec (.rDout 4) s = .next { s with
    outQ := q, reads := s.reads ++ [w], events := s.events ++ notifications s { s with outQ := q } } := by
  have hrow : rowRDout s = .done { s with outQ := q } (some w) := by unfold rowRDout; rw [h]
  have hr := hostTransaction_read s hrow
  rw [notifyCheck_eq] at hr
  exact congrArg Host.Outcome.next hr

/-- Settles O15: an empty FIFO faults; otherwise the FIFO holds one word less, and so it is not full. -/
theorem doutReadPopsOrUnderruns : Obligations.DoutReadPopsOrUnderruns := by
  unfold Obligations.DoutReadPopsOrUnderruns
  refine ⟨rfl, exec_rDout_empty, fun s w q h => ⟨_, exec_rDout s h, rfl, fun hle => ?_, ?_⟩⟩
  · rw [h, List.length_cons] at hle
    rw [srWord_bit3]
    exact beq_false_of_ne (Nat.ne_of_lt hle)
  · rw [srWord_bit2]
    simp only [State.ofne, List.length_pos_iff]

/-! ### The key, IV and context registers -/

theorem decode_wKey (k : Fin 8) (v : Word) :
    decode (.bus (0x120 + 4 * BitVec.ofNat 9 k.val) 4 v) = .ok (.wKey 4 k v) := by
  have hsel : (0x120 : BitVec 9) + 4 * BitVec.ofNat 9 k.val = indexedSel 0x120 k.val := by
    rw [indexedSel, BitVec.ofNat_mul]
    rfl
  rw [hsel]
  exact decode_encode_transaction (i := .wKey 4 k v) rfl rfl

theorem exec_wKey (k : Fin 8) (v : Word) : exec (.wKey 4 k v) s = .next (if s.busy then s.raiseFault .keyWriteWhileBusy
    else { s with key := s.key.set k.val v k.isLt, decKeyReady := false }) :=
  congrArg Host.Outcome.next (hostTransaction_writeShielded s (row := rowWKey k v) rfl)

/-- Settles O16: the two cases of the write, whose row reads neither CRYPEN nor which registers the mode uses. -/
theorem keyWriteStoresAndClearsPreparation : Obligations.KeyWriteStoresAndClearsPreparation := by
  unfold Obligations.KeyWriteStoresAndClearsPreparation
  refine fun s k v => ⟨decode_wKey k v, fun hb => ?_, fun hb => ?_⟩ <;> rw [exec_wKey, hb] <;> rfl

theorem exec_rIv (v : Fin 4) : exec (.rIv 4 v) s = .next (s.readShielded s.iv[v.val]) :=
  congrArg Host.Outcome.next (hostTransaction_readShielded s (row := rowRIv v) rfl)

theorem exec_wIv (v : Fin 4) (x : Word) : exec (.wIv 4 v x) s =
    .next (if s.busy then s.raiseFault .ivWriteWhileBusy else { s with iv := s.iv.set v.val x v.isLt }) :=
  congrArg Host.Outcome.next (hostTransaction_writeShielded s (row := rowWIv v x) rfl)

@[simp] theorem ctxLo_val (x : Fin 4) : (ctxLo x).val = x.val := Nat.mod_eq_of_lt (by omega)

@[simp] theorem ctxHi_val (x : Fin 4) : (ctxHi x).val = 4 + x.val := Nat.mod_eq_of_lt (by omega)

theorem exec_rCswLo (x : Fin 4) : exec (.rCswLo 4 x) s = .next (s.readShielded s.csw[x.val]) := by
  simp only [← ctxLo_val]
  exact congrArg Host.Outcome.next (hostTransaction_readShielded s (row := rowRCsw (ctxLo x)) rfl)

theorem exec_rCswHi (x : Fin 4) : exec (.rCswHi 4 x) s = .next (s.readShielded s.csw[4 + x.val]) := by
  simp only [← ctxHi_val]
  exact congrArg Host.Outcome.next (hostTransaction_readShielded s (row := rowRCsw (ctxHi x)) rfl)

theorem exec_rCsfLo (x : Fin 4) : exec (.rCsfLo 4 x) s = .next (s.readShielded s.csf[x.val]) := by
  simp only [← ctxLo_val]
  exact congrArg Host.Outcome.next (hostTransaction_readShielded s (row := rowRCsf (ctxLo x)) rfl)

theorem exec_rCsfHi (x : Fin 4) : exec (.rCsfHi 4 x) s = .next (s.readShielded s.csf[4 + x.val]) := by
  simp only [← ctxHi_val]
  exact congrArg Host.Outcome.next (hostTransaction_readShielded s (row := rowRCsf (ctxHi x)) rfl)

theorem exec_wCswLo (x : Fin 4) (y : Word) : exec (.wCswLo 4 x y) s =
    .next (if s.busy then s.raiseFault .ctxWriteWhileBusy else { s with csw := s.csw.set x.val y }) := by
  simp only [← ctxLo_val]
  exact congrArg Host.Outcome.next (hostTransaction_writeShielded s (row := rowWCsw (ctxLo x) y) rfl)

theorem exec_wCswHi (x : Fin 4) (y : Word) : exec (.wCswHi 4 x y) s =
    .next (if s.busy then s.raiseFault .ctxWriteWhileBusy else { s with csw := s.csw.set (4 + x.val) y }) := by
  simp only [← ctxHi_val]
  exact congrArg Host.Outcome.next (hostTransaction_writeShielded s (row := rowWCsw (ctxHi x) y) rfl)

theorem exec_wCsfLo (x : Fin 4) (y : Word) : exec (.wCsfLo 4 x y) s =
    .next (if s.busy then s.raiseFault .ctxWriteWhileBusy else { s with csf := s.csf.set x.val y }) := by
  simp only [← ctxLo_val]
  exact congrArg Host.Outcome.next (hostTransaction_writeShielded s (row := rowWCsf (ctxLo x) y) rfl)

theorem exec_wCsfHi (x : Fin 4) (y : Word) : exec (.wCsfHi 4 x y) s =
    .next (if s.busy then s.raiseFault .ctxWriteWhileBusy else { s with csf := s.csf.set (4 + x.val) y }) := by
  simp only [← ctxHi_val]
  exact congrArg Host.Outcome.next (hostTransaction_writeShielded s (row := rowWCsf (ctxHi x) y) rfl)

/-- Settles O17: each register's read and write, in the idle case and in the busy one. -/
theorem ivAndContextRegistersReadAndWrite : Obligations.IvAndContextRegistersReadAndWrite := by
  unfold Obligations.IvAndContextRegistersReadAndWrite
  have free : ∀ (s : State) (x : Word), s.busy = true → ∃ (w : Word) (n : Nat),
      (.next (s.readShielded x) : Host.Outcome State Fault Refusal)
        = .next { s with reads := s.reads ++ [w], draws := n } :=
    fun s x hb => ⟨_, _, congrArg Host.Outcome.next (s.readShielded_busy x hb)⟩
  simp only [exec_rIv, exec_wIv, exec_rCswLo, exec_rCswHi, exec_rCsfLo, exec_rCsfHi, exec_wCswLo, exec_wCswHi,
    exec_wCsfLo, exec_wCsfHi]
  refine ⟨fun s v x => ⟨fun hb => ?_, free s _, fun hb => ?_, fun hb => ?_⟩, fun s x y => ⟨fun hb => ?_, fun hb => ?_⟩⟩
  · rw [s.readShielded_idle _ hb]
  · rw [hb]; rfl
  · rw [hb]; rfl
  · simp [State.readShielded_idle, hb]
  · exact ⟨free s _ hb, free s _ hb, free s _ hb, free s _ hb, by simp [hb]⟩

/-! ### Bus errors -/

theorem hostTransaction_busErr (width : Nat) : hostTransaction width rowBusErr s = s.raiseFault .busError := by
  by_cases h : width = 4
  · rw [h]; exact hostTransaction_fault s rfl
  · exact hostTransaction_width s h rowBusErr

theorem exec_busErrUnmapped90 (n : Nat) (a : Access) (o : BitVec 2) :
    exec (.busErrUnmapped90 n a o) s = .next (s.raiseFault .busError) :=
  congrArg Host.Outcome.next (hostTransaction_busErr s n)

theorem exec_busErrUnmappedA0 (n : Nat) (a : Access) (o : BitVec 3) :
    exec (.busErrUnmappedA0 n a o) s = .next (s.raiseFault .busError) :=
  congrArg Host.Outcome.next (hostTransaction_busErr s n)

theorem exec_busErrUnmappedC0 (n : Nat) (a : Access) (o : BitVec 4) :
    exec (.busErrUnmappedC0 n a o) s = .next (s.raiseFault .busError) :=
  congrArg Host.Outcome.next (hostTransaction_busErr s n)

theorem exec_busErrMisalignedOdd (n : Nat) (a : Access) (o : BitVec 7) :
    exec (.busErrMisalignedOdd n a o) s = .next (s.raiseFault .busError) :=
  congrArg Host.Outcome.next (hostTransaction_busErr s n)

theorem exec_busErrMisalignedEven (n : Nat) (a : Access) (o : BitVec 6) :
    exec (.busErrMisalignedEven n a o) s = .next (s.raiseFault .busError) :=
  congrArg Host.Outcome.next (hostTransaction_busErr s n)

/-- The bus-error rows fault whatever T, WIDTH and DATA are (R224). -/
theorem exec_build_of_mem_busRowsError (t : BitVec 9) (n : Nat) (d : Word) :
    ∀ row ∈ busRowsError, exec (row.build t n d) s = .next (s.raiseFault .busError) := by
  simp only [busRowsError, List.forall_mem_cons, List.not_mem_nil, false_implies, implies_true, and_true]
  exact ⟨exec_busErrMisalignedOdd s n _ _, exec_busErrMisalignedEven s n _ _, exec_busErrUnmapped90 s n _ _,
    exec_busErrUnmappedA0 s n _ _, exec_busErrUnmappedC0 s n _ _⟩

/-- What a row of format BUS makes is one transaction, of the record's width, by a rule that T and DATA give (R225). -/
theorem exec_build_of_mem_busRows (t : BitVec 9) (d : Word) : ∀ row ∈ busRows,
    ∃ rule : Row, ∀ n s, exec (row.build t n d) s = .next (hostTransaction n rule s) := by
  simp only [busRows, busRowsError, busRowsPorts, busRowsInterrupt, busRowsFiles, List.forall_mem_append,
    List.forall_mem_cons, List.not_mem_nil, false_implies, implies_true, and_true]
  and_intros
  all_goals exact ⟨_, fun _ _ => rfl⟩

/-- An offset that is misaligned or at 0x90 or above selects a bus-error row, over the 512 selectors (R141, R224). -/
theorem selects_busRowsError (t : BitVec 9) (h : t.extractLsb' 0 2 ≠ 0 ∨ 0x90 ≤ (t.extractLsb' 0 8).toNat) :
    ∃ row ∈ busRowsError, row.selects t = true := by
  revert t
  decide +kernel

theorem readWidth_ne_four {code : BitVec 8} (h : code ≠ 0 ∧ code ≠ 4) : readWidth code ≠ 4 := by
  obtain ⟨h0, h4⟩ := h
  rw [readWidth, if_neg (mt beq_iff_eq.1 h0)]
  exact fun e => h4 (BitVec.eq_of_toNat_eq e)

/-- Settles O18: a bad offset selects a row that always faults, and a bad width faults whatever the row. -/
theorem badTransactionsRaiseBusError : Obligations.BadTransactionsRaiseBusError := by
  unfold Obligations.BadTransactionsRaiseBusError
  refine ⟨fun t code data h => ?_, fun n a o s => exec_busErrUnmapped90 s n a o,
    fun n a o s => exec_busErrUnmappedA0 s n a o, fun n a o s => exec_busErrUnmappedC0 s n a o,
    fun n a o s => exec_busErrMisalignedOdd s n a o, fun n a o s => exec_busErrMisalignedEven s n a o⟩
  rcases or_assoc.2 h with hoffset | hwidth
  · obtain ⟨row, hrow, hsel⟩ := selects_busRowsError t hoffset
    exact ⟨_, decode_bus_of_selects (List.mem_append_left _ hrow) hsel code data,
      fun s => exec_build_of_mem_busRowsError s t _ data row hrow⟩
  · obtain ⟨row, hfind⟩ := busRows_total t
    obtain ⟨rule, hrule⟩ := exec_build_of_mem_busRows t data row (mem_and_selects_of_find? hfind).1
    refine ⟨_, decode_bus_of_find? hfind code data, fun s => ?_⟩
    rw [hrule, hostTransaction_width s (readWidth_ne_four hwidth)]

end Sys2Proof.Machine
end

section
/-! The data-unit swaps as maps of bit positions (R284). -/

namespace Sys2Proof.Machine

/-- The bit position that a data-unit swap reads for bit `n` of its result, by the table of R284. -/
def swapIndex : DataWidth → Nat → Nat
  | .w32, n => n
  | .w16, n => (n + 16) % 32
  | .w8, n => 8 * (3 - n / 8) + n % 8
  | .w1, n => 31 - n

theorem swapIndex_lt (dt : DataWidth) {n : Nat} (h : n < 32) : swapIndex dt n < 32 := by
  cases dt <;> simp only [swapIndex] <;> omega

theorem swapIndex_swapIndex (dt : DataWidth) {n : Nat} (h : n < 32) : swapIndex dt (swapIndex dt n) = n := by
  cases dt <;> simp only [swapIndex] <;> omega

theorem getLsbD_slice (w : Word) {lo len i n : Nat} (hi : i < len) (hn : lo + i = n) :
    (w.extractLsb' lo len).getLsbD i = w.getLsbD n := by
  rw [BitVec.getLsbD_extractLsb', decide_eq_true hi, Bool.true_and, hn]

theorem getLsbD_swapWord (dt : DataWidth) (w : Word) {n : Nat} (h : n < 32) :
    (swapWord dt w).getLsbD n = w.getLsbD (swapIndex dt n) := by
  cases dt with
  | w32 => rfl
  | w16 =>
    simp only [swapWord, BitVec.getLsbD_append, swapIndex]
    split_ifs <;> exact getLsbD_slice w (by omega) (by omega)
  | w8 =>
    simp only [swapWord, BitVec.getLsbD_append, swapIndex]
    split_ifs <;> exact getLsbD_slice w (by omega) (by omega)
  | w1 =>
    change w.reverse.getLsbD n = w.getLsbD (31 - n)
    rw [BitVec.getLsbD_reverse, BitVec.getMsbD_eq_getLsbD, decide_eq_true h, Bool.true_and]

/-- Two reads of the table bring each bit back to its place. -/
theorem swapWord_swapWord (dt : DataWidth) (w : Word) : swapWord dt (swapWord dt w) = w := by
  refine BitVec.eq_of_getLsbD_eq fun n hn => ?_
  rw [getLsbD_swapWord dt _ hn, getLsbD_swapWord dt _ (swapIndex_lt dt hn), swapIndex_swapIndex dt hn]

/-- Settles O31: a swap is its table's map of bit positions, and each such map is its own inverse. -/
theorem dataUnitSwapsAreInvolutions : Obligations.DataUnitSwapsAreInvolutions := by
  unfold Obligations.DataUnitSwapsAreInvolutions
  exact fun w => ⟨fun dt => swapWord_swapWord dt w, rfl, fun _ => getLsbD_swapWord .w16 w,
    fun _ => getLsbD_swapWord .w8 w, fun _ => getLsbD_swapWord .w1 w⟩

end Sys2Proof.Machine
end

section
/-! What the engine reads of CR: the dispatcher's rows (R271), the arguments of the core calls over the code tables of
R143 to R147, and the phase field, which means nothing outside GCM and CCM (R286). -/

namespace Sys2Proof

theorem Mode.isEcb_iff (m : Mode) : m.isEcb = true ↔ m = .tdesEcb ∨ m = .desEcb ∨ m = .aesEcb := by cases m <;> decide

theorem Mode.isAead_iff (m : Mode) : m.isAead = true ↔ m = .aesGcm ∨ m = .aesCcm := by cases m <;> decide

theorem Mode.isAes_eq_false_iff (m : Mode) :
    m.isAes = false ↔ m = .tdesEcb ∨ m = .tdesCbc ∨ m = .desEcb ∨ m = .desCbc := by cases m <;> decide

/-! ### The code tables as lists -/

theorem Mode.ofCode_eq_getElem? (c : BitVec 4) : Mode.ofCode c =
    [Mode.tdesEcb, .tdesCbc, .desEcb, .desCbc, .aesEcb, .aesCbc, .aesCtr, .aesKeyPrep, .aesGcm, .aesCcm][c.toNat]? := by
  revert c
  decide

theorem DataWidth.getElem?_eq_ofCode (c : BitVec 2) :
    [DataWidth.w32, .w16, .w8, .w1][c.toNat]? = some (DataWidth.ofCode c) := by
  revert c
  decide

theorem KeySize.ofCode_eq_getElem? (c : BitVec 2) :
    KeySize.ofCode c = [KeySize.k128, .k192, .k256][c.toNat]? := by
  revert c
  decide

theorem Phase.getElem?_eq_ofCode (c : BitVec 2) :
    [Phase.init, .header, .payload, .final][c.toNat]? = some (Phase.ofCode c) := by
  revert c
  decide

end Sys2Proof

namespace Sys2Proof.Machine

/-! ### The dispatcher -/

/-- The AEAD rows of R271, by the code of the phase (R146). -/
theorem aeadShape_eq (p : Config.Params) (cr : Word) (finalDone : Bool) (m : Mode) :
    shape.aeadShape p cr finalDone m =
      if phaseField cr = 0 then none
      else if phaseField cr = 1 then some (.data, 4, 0)
      else if phaseField cr = 2 then some (.data, 4, 4)
      else if finalDone = false ∧ finalInWords p m = 4 then some (.tag, 4, 4) else none := by
  unfold shape.aeadShape phaseOf
  generalize phaseField cr = c
  have hcode : c = 0 ∨ c = 1 ∨ c = 2 ∨ c = 3 := by revert c; decide
  rcases hcode with rfl | rfl | rfl | rfl
  · rfl
  · rfl
  · rfl
  · simp [Phase.ofCode]

/-- Settles O26: the rows of R271 by the mode, and by the phase for GCM and CCM. -/
theorem dispatcherShapeTable : Obligations.DispatcherShapeTable := by
  unfold Obligations.DispatcherShapeTable
  intro p cr finalDone m hm
  unfold shape
  rw [hm]
  cases m
  case aesGcm => exact aeadShape_eq p cr finalDone .aesGcm
  case aesCcm => exact aeadShape_eq p cr finalDone .aesCcm
  all_goals rfl

/-! ### The key registers that a configuration uses -/

theorem getElem_visibleKey (m : Mode) (ks : Option KeySize) (key : Vector Word 8) (i : Fin 8) :
    (visibleKey m ks key)[i.val] = if keyUsed m ks i.val = true then key[i.val] else 0 :=
  Vector.getElem_mapIdx ..

/-- Law (d) of R283: key files that agree where the configuration reads them look the same to the core. -/
theorem visibleKey_congr {m : Mode} {ks : Option KeySize} {key key' : Vector Word 8}
    (h : ∀ i : Fin 8, keyUsed m ks i.val = true → key[i.val] = key'[i.val]) :
    visibleKey m ks key = visibleKey m ks key' := by
  refine Vector.ext fun i hi => ?_
  rw [getElem_visibleKey m ks key ⟨i, hi⟩, getElem_visibleKey m ks key' ⟨i, hi⟩]
  exact ite_congr rfl (h ⟨i, hi⟩) fun _ => rfl

/-- What the engine passes of a legal CR and of the key file is what the code tables say (R143 to R147, R273). -/
theorem coreReads {cr : Word} {m : Mode} (hm : crMode cr = some m) (hcr : reservedConfig cr = false)
    (key : Vector Word 8) :
    CoreReads cr key m (crWidth cr) (kszOf m cr) (crDir cr) (phaseOf cr) (visibleKey m (kszOf m cr) key) where
  mode := (Mode.ofCode_eq_getElem? _).symm.trans hm
  width := DataWidth.getElem?_eq_ofCode _
  keySize := by
    simp only [← Mode.isAes_eq_false_iff, ← KeySize.ofCode_eq_getElem?]
    unfold kszOf
    cases m.isAes <;> rfl
  keySize_legal h1 h2 h3 h4 := by
    have hAes : m.isAes = true := by
      rw [← Bool.not_eq_false, Mode.isAes_eq_false_iff]
      tauto
    have hks : ksField cr ≠ 0b11 := by
      unfold reservedConfig at hcr
      simpa [hm, hAes] using hcr
    rw [kszOf, if_pos hAes, Option.isSome_iff_ne_none]
    exact mt (KeySize.ofCode_eq_none_iff _).1 hks
  direction := by
    unfold crDir
    cases cr.getLsbD 2 <;> rfl
  phase := Phase.getElem?_eq_ofCode _
  keys := getElem_visibleKey m _ key

/-! ### The core calls -/

section
variable {m : Mode} {cr : Word} {key key' : Vector Word 8}
  (h : ∀ i : Fin 8, keyUsed m (kszOf m cr) i.val = true → key[i.val] = key'[i.val])
include h

theorem coreBlock_congr_key (iv : Vector Word 4) (csw csf : Vector Word 8) (din : List Word) (bo : Nat) :
    coreBlock m cr key iv csw csf din bo = coreBlock m cr key' iv csw csf din bo := by
  dsimp only [coreBlock]
  rw [visibleKey_congr h]

theorem coreInit_congr_key (iv : Vector Word 4) : coreInit m cr key iv = coreInit m cr key' iv := by
  dsimp only [coreInit]
  rw [visibleKey_congr h]

theorem coreTag_congr_key (iv : Vector Word 4) (csw csf : Vector Word 8) (din : List Word) :
    coreTag m cr key iv csw csf din = coreTag m cr key' iv csw csf din := by
  dsimp only [coreTag]
  rw [visibleKey_congr h]

end

/-- Law (a) of R283: a block pass that asks for `bo` words, which are four at most, gets `bo` words. -/
theorem length_coreBlock (m : Mode) (cr : Word) (key : Vector Word 8) (iv : Vector Word 4) (csw csf : Vector Word 8)
    (din : List Word) {bo : Nat} (h : bo ≤ 4) : (coreBlock m cr key iv csw csf din bo).1.length = bo := by
  unfold coreBlock
  exact List.length_take_of_le (by rw [Vector.length_toList]; exact h)

/-! ### The phase field outside GCM and CCM -/

/-- Two CR words that differ in GCM_CCMPH alone. -/
def SameButPhase (a b : Word) : Prop := a &&& ~~~(0x00030000 : Word) = b &&& ~~~(0x00030000 : Word)

namespace SameButPhase

variable {a b : Word} (h : SameButPhase a b)
include h

/-- A function of a CR word that masking GCM_CCMPH out leaves alone. -/
theorem congr {α : Type} {f : Word → α} (hf : ∀ w : Word, f (w &&& ~~~(0x00030000 : Word)) = f w) : f a = f b := by
  rw [← hf a, h, hf b]

theorem crMode_eq : crMode a = crMode b := h.congr fun w => by
  unfold crMode
  rw [modeField_and rfl rfl]

theorem kszOf_eq (m : Mode) : kszOf m a = kszOf m b := h.congr fun w => by
  have hks : ksField (w &&& ~~~(0x00030000 : Word)) = ksField w := extractLsb'_and_of_allOnes rfl
  unfold kszOf
  rw [hks]

theorem crDir_eq : crDir a = crDir b := h.congr fun w => by
  unfold crDir
  rw [BitVec.getLsbD_and, show (~~~(0x00030000 : Word)).getLsbD 2 = true from rfl, Bool.and_true]

theorem crypen_eq : crypen a = crypen b := h.congr fun w => by
  unfold crypen
  rw [BitVec.getLsbD_and, show (~~~(0x00030000 : Word)).getLsbD 15 = true from rfl, Bool.and_true]

theorem keyPrepCondition_eq : keyPrepCondition a = keyPrepCondition b := by
  unfold keyPrepCondition
  rw [h.crypen_eq, h.crMode_eq]

/-- R286: outside GCM and CCM the core does not see the phase. -/
theorem coreBlock_eq {m : Mode} (hm : m.isAead = false) (key : Vector Word 8) (iv : Vector Word 4)
    (csw csf : Vector Word 8) (din : List Word) (bo : Nat) :
    coreBlock m a key iv csw csf din bo = coreBlock m b key iv csw csf din bo := by
  unfold coreBlock visiblePhase
  simp only [hm, h.kszOf_eq, h.crDir_eq]
  rfl

/-- R271, R286: outside GCM and CCM the dispatcher does not see the phase. -/
theorem shape_eq {m : Mode} (hmode : crMode a = some m) (hm : m.isAead = false) (p : Config.Params) (finalDone : Bool) :
    shape p a finalDone = shape p b finalDone := by
  have hb : crMode b = some m := h.crMode_eq ▸ hmode
  rw [dispatcherShapeTable p a finalDone m hmode, dispatcherShapeTable p b finalDone m hb]
  cases m
  case aesGcm | aesCcm => cases hm
  all_goals rfl

end SameButPhase

/-- R278: outside GCM and CCM no init pass has its condition. -/
theorem initCondition_of_not_aead {cr : Word} {m : Mode} (hmode : crMode cr = some m) (hm : m.isAead = false) :
    initCondition cr = false := by
  unfold initCondition
  simp [hmode, hm]

/-- R278: nor has a tag pass. -/
theorem tagCondition_of_not_aead (p : Config.Params) {cr : Word} {m : Mode} (hmode : crMode cr = some m)
    (hm : m.isAead = false) : tagCondition p cr = false := by
  unfold tagCondition
  simp [hmode, hm]

/-- Settles O32: each core call sees the used key registers alone, and nothing sees the phase of a mode without one. -/
theorem passesDependOnTheirArgumentsOnly : Obligations.PassesDependOnTheirArgumentsOnly := by
  unfold Obligations.PassesDependOnTheirArgumentsOnly
  intro p m cr key key' iv csw csf din hmode
  refine ⟨fun hkey => ?_, fun bo => length_coreBlock m cr key iv csw csf din, fun hgcm hccm cr' hcr => ?_⟩
  · exact ⟨coreBlock_congr_key hkey iv csw csf din, coreInit_congr_key hkey iv, coreTag_congr_key hkey iv csw csf din⟩
  · have hm : m.isAead = false := by
      rw [← Bool.not_eq_true, Mode.isAead_iff]
      exact not_or.2 ⟨hgcm, hccm⟩
    have hsame : SameButPhase cr cr' := hcr
    exact ⟨hsame.coreBlock_eq hm key iv csw csf din, hsame.shape_eq hmode hm p, hsame.keyPrepCondition_eq,
      initCondition_of_not_aead hmode hm, tagCondition_of_not_aead p hmode hm⟩

end Sys2Proof.Machine
end

section
/-! One turn of the engine or of a DMA agent: the step it takes, or the schedule alone (R272 to R276, R280, R281). -/

namespace Sys2Proof.Machine

variable {s : State}

/-! ### A turn of the schedule -/

section
variable {a : Turn} {rest : List Turn} (h : s.sched = a :: rest) (ha : a ≠ .host)
include h ha

/-- The schedule moves on, whatever the agent does. -/
theorem step_agent_sched : step s = .next { agentStep a s with sched := rest } := by
  rw [step_agent h ha, agentStep_sched]

end

section
variable {rest : List Turn} (h : s.sched = .engine :: rest)
include h

theorem step_engine_some {t : State} (e : engineStep s = some t) : step s = .next { t with sched := rest } := by
  rw [step_agent_sched h nofun, agentStep, e]
  rfl

theorem step_engine_none (e : engineStep s = none) : step s = .next { s with sched := rest } := by
  rw [step_agent_sched h nofun, agentStep, e]
  rfl

end

/-! ### The engine's step, by the pass in flight (R270) -/

theorem engineStep_idle (h : s.pass = none) : engineStep s = startBlock s := by
  unfold engineStep
  rw [h]

theorem engineStep_data {bo : Nat} (h : s.pass = some (.data bo)) : engineStep s = completeData bo s := by
  unfold engineStep
  rw [h]

theorem engineStep_keyPrep (h : s.pass = some .keyPrep) : engineStep s = completeKeyPrep s := by
  unfold engineStep
  rw [h]

theorem engineStep_init (h : s.pass = some .init) : engineStep s = completeInit s := by
  unfold engineStep
  rw [h]

theorem engineStep_tag (h : s.pass = some .tag) : engineStep s = completeTag s := by
  unfold engineStep
  rw [h]

/-! ### StartBlock -/

/-- The gate of R272, over the bits it reads. -/
theorem keyMissing_iff : keyMissing s = true ↔
    (crMode s.cr = some .aesEcb ∨ crMode s.cr = some .aesCbc) ∧ s.cr.getLsbD 2 = true ∧ s.decKeyReady = false := by
  have hprep : (crMode s.cr).any Mode.prepBeforeDec = true ↔
      crMode s.cr = some .aesEcb ∨ crMode s.cr = some .aesCbc := by
    cases crMode s.cr with
    | none => simp
    | some m => cases m <;> decide
  have hdir : crDir s.cr = .dec ↔ s.cr.getLsbD 2 = true := by
    unfold crDir
    cases s.cr.getLsbD 2 <;> decide
  unfold keyMissing
  rw [Bool.and_eq_true, Bool.and_eq_true, Bool.not_eq_true', beq_iff_eq, hprep, hdir, and_assoc]

section
variable {kind : PassKind} {bi bo : Nat} (hshape : shape s.params s.cr s.finalDone = some (kind, bi, bo))
include hshape

/-- With the words and the room there, the gate decides (R272). -/
theorem startBlock_ready (hen : crypen s.cr = true) (hb : s.busy = false) (hi : bi ≤ s.inQ.length)
    (ho : s.outQ.length + bo ≤ s.params.outDepth) : startBlock s = some (
      if keyMissing s then s.raiseFault .keyNotPrepared
      else notifyCheck s ({ s with inQ := s.inQ.drop bi }.startPass kind (passOf kind bo) (s.inQ.take bi))) := by
  unfold startBlock
  rw [hshape]
  dsimp only
  rw [if_pos (by simp [hen, hb, hi, ho]), apply_ite some]

/-- Of what a shape can start, a data pass carries its output words and the other is a tag pass (R271, R272). -/
theorem some_passOf_of_shape : some (passOf kind bo) = if kind = .data then some (.data bo) else some .tag := by
  obtain rfl | ⟨⟨rfl, _⟩, _⟩ := shape_cases hshape <;> rfl

end

/-- The engine waits where it is not enabled, and where words or room are missing (R272). -/
theorem startBlock_waits (h : crypen s.cr = false ∨ shape s.params s.cr s.finalDone = none
      ∨ ∃ kind bi bo, shape s.params s.cr s.finalDone = some (kind, bi, bo)
          ∧ (s.inQ.length < bi ∨ s.params.outDepth < s.outQ.length + bo)) : startBlock s = none := by
  by_contra hne
  obtain ⟨t, ht⟩ := Option.ne_none_iff_exists'.1 hne
  obtain ⟨kind, bi, bo, hshape, hen, _, hi, ho, _⟩ := startBlock_some s ht
  obtain hoff | hnone | ⟨kind', bi', bo', hshape', hshort⟩ := h
  · exact absurd (hen.symm.trans hoff) nofun
  · exact absurd (hshape.symm.trans hnone) nofun
  · cases hshape.symm.trans hshape'
    omega

/-- Settles O27: the turn is StartBlock's, by whether the block is ready and what the gate says. -/
theorem engineStartsABlock : Obligations.EngineStartsABlock := by
  unfold Obligations.EngineStartsABlock
  intro s rest hinv hb hsched unprepared
  have hstep : engineStep s = startBlock s := engineStep_idle (hinv.idle hb).pass
  have hbound := hinv.outQ_bound
  refine ⟨fun kind bi bo hen hshape hi ho => ?_, fun hwait => ?_⟩
  · have hready := hstep.trans (startBlock_ready hshape hen hb hi (by omega))
    refine ⟨fun hmissing => ?_, fun hok => ?_⟩
    · rw [if_pos (keyMissing_iff.2 hmissing)] at hready
      exact step_engine_some hsched hready
    · rw [if_neg (mt keyMissing_iff.1 hok), notifyCheck_eq] at hready
      rw [← some_passOf_of_shape hshape]
      exact step_engine_some hsched hready
  · refine step_engine_none hsched (hstep.trans (startBlock_waits ?_))
    refine hwait.imp_right (Or.imp_right ?_)
    rintro ⟨kind, bi, bo, hshape, hshort⟩
    exact ⟨kind, bi, bo, hshape, by omega⟩

/-! ### CompleteData -/

/-- The core call of a data pass (R273, R288): the arguments, and what IV, CSW and CSF take. -/
theorem coreBlock_eq (m : Mode) (cr : Word) (key : Vector Word 8) (iv : Vector Word 4) (csw csf : Vector Word 8)
    (din : List Word) (bo : Nat) {r : Config.CoreOut} (hr : r = Config.cipherBlock {
      mode := m, dir := crDir cr, keySize := kszOf m cr, key := visibleKey m (kszOf m cr) key, din := din
      iv := if m = .tdesEcb ∨ m = .desEcb ∨ m = .aesEcb then Vector.replicate 4 0 else iv
      phase := if m = .aesGcm ∨ m = .aesCcm then phaseOf cr else .init
      csw := if m = .aesGcm ∨ m = .aesCcm then csw else Vector.replicate 8 0
      csf := if m = .aesGcm ∨ m = .aesCcm then csf else Vector.replicate 8 0 }) :
    coreBlock m cr key iv csw csf din bo = (r.out.toList.take bo,
      if m = .tdesEcb ∨ m = .desEcb ∨ m = .aesEcb then iv else r.iv,
      if m = .aesGcm ∨ m = .aesCcm then r.csw else csw,
      if m = .aesGcm ∨ m = .aesCcm then r.csf else csf) := by
  subst hr
  simp only [coreBlock, visibleIv, visiblePhase, visibleCtx, Mode.isEcb_iff, Mode.isAead_iff]

/-- With a pass in flight BUSY is 1 (R61). -/
theorem BlockInv.busy_of_pass (h : BlockInv s) {p : Pass} (hp : s.pass = some p) : s.busy = true := by
  rw [h.busy_iff, hp]
  rfl

/-- With a pass in flight CRYPEN is 1 (R37, R61). -/
theorem BlockInv.enabled_of_pass (h : BlockInv s) {p : Pass} (hp : s.pass = some p) : crypen s.cr = true :=
  h.busy_enabled (h.busy_of_pass hp)

/-- A legal CR names a mode (R39). -/
theorem BlockInv.exists_crMode (h : BlockInv s) : ∃ m, crMode s.cr = some m := by
  have hres := h.cr_legal.2
  unfold reservedConfig at hres
  cases hm : crMode s.cr with
  | none => rw [hm] at hres; cases hres
  | some m => exact ⟨m, rfl⟩

theorem completeData_enabled {bo : Nat} {m : Mode} (hm : crMode s.cr = some m) (hen : crypen s.cr = true)
    {out : List Word} {iv : Vector Word 4} {csw csf : Vector Word 8}
    (hcore : (out, iv, csw, csf)
      = coreBlock m s.cr s.key s.iv s.csw s.csf (s.inflight.map (swapWord (crWidth s.cr))) bo) :
    completeData bo s = some { s with
      outQ := s.outQ ++ out.map (swapWord (crWidth s.cr)), iv := iv, csw := csw, csf := csf
      inflight := [], busy := false, pass := none
      events := s.events ++ [.passDone .data]
        ++ notifications s { s with outQ := s.outQ ++ out.map (swapWord (crWidth s.cr)) } } := by
  unfold completeData
  rw [hm]
  dsimp only
  rw [if_pos hen, ← hcore, notifyCheck_eq]
  rfl

/-- Settles O28: the turn is CompleteData's, whose core call is written out over the code tables. -/
theorem engineCompletesADataPass : Obligations.EngineCompletesADataPass := by
  unfold Obligations.EngineCompletesADataPass
  intro s rest bo hinv hp hsched
  obtain ⟨m, hm⟩ := hinv.exists_crMode
  obtain ⟨hshape, hroom, _⟩ := (passLegal_data hp).1 hinv.pass_legal
  have hbo : bo ≤ 4 := (shape_pos hshape).2
  have hen : crypen s.cr = true := hinv.enabled_of_pass hp
  have hcore := (coreBlock_eq m s.cr s.key s.iv s.csw s.csf (s.inflight.map (swapWord (crWidth s.cr))) bo rfl).symm
  have hlen := length_coreBlock m s.cr s.key s.iv s.csw s.csf (s.inflight.map (swapWord (crWidth s.cr))) hbo
  rw [← hcore] at hlen
  refine ⟨m, crWidth s.cr, kszOf m s.cr, crDir s.cr, phaseOf s.cr, visibleKey m (kszOf m s.cr) s.key, _, _, _, _, _, hm,
    coreReads hm hinv.cr_legal.2 s.key, rfl, rfl, rfl, rfl, rfl, hcore, hlen, hroom, ?ecb, ?notAead,
    step_engine_some hsched ((engineStep_data hp).trans (completeData_enabled hm hen hcore))⟩
  case ecb => exact fun hecb => if_pos hecb
  case notAead => exact fun hgcm hccm => ⟨if_neg (not_or.2 ⟨hgcm, hccm⟩), if_neg (not_or.2 ⟨hgcm, hccm⟩)⟩

/-! ### CompleteKeyPrep, CompleteInit and CompleteTag -/

theorem completeKeyPrep_enabled (hen : crypen s.cr = true) : completeKeyPrep s = some { s with
    decKeyReady := true, inflight := [], busy := false, pass := none, events := s.events ++ [.passDone .keyPrep] } := by
  have hquiet : notifyCheck s ({ s with decKeyReady := true }.endPass .keyPrep)
      = { s with decKeyReady := true }.endPass .keyPrep := notifyCheck_eq_self rfl rfl rfl rfl
  unfold completeKeyPrep
  rw [if_pos hen, hquiet]
  rfl

theorem completeInit_enabled {m : Mode} (hm : crMode s.cr = some m) (hen : crypen s.cr = true)
    {r : Config.InitOut} (hr : r = coreInit m s.cr s.key s.iv) : completeInit s = some { s with
      iv := r.iv, csw := r.csw, csf := r.csf, inflight := [], busy := false, pass := none
      events := s.events ++ [.passDone .init] } := by
  have hquiet : notifyCheck s ({ s with iv := r.iv, csw := r.csw, csf := r.csf }.endPass .init)
      = { s with iv := r.iv, csw := r.csw, csf := r.csf }.endPass .init := notifyCheck_eq_self rfl rfl rfl rfl
  unfold completeInit
  rw [hm]
  dsimp only
  rw [if_pos hen, ← hr, hquiet]
  rfl

theorem completeTag_enabled {m : Mode} (hm : crMode s.cr = some m) (hen : crypen s.cr = true)
    (hroom : s.outQ.length + 4 ≤ s.params.outDepth) {r : Config.CoreOut}
    (hr : r = coreTag m s.cr s.key s.iv s.csw s.csf (s.inflight.map (swapWord (crWidth s.cr)))) :
    completeTag s = some { s with
      outQ := s.outQ ++ r.out.toList.map (swapWord (crWidth s.cr)), iv := r.iv, csw := r.csw, csf := r.csf
      inflight := [], busy := false, pass := none, finalDone := true
      events := s.events ++ [.passDone .tag]
        ++ notifications s { s with outQ := s.outQ ++ r.out.toList.map (swapWord (crWidth s.cr)) } } := by
  unfold completeTag
  rw [hm]
  dsimp only
  rw [if_pos (by simp [hen, hroom]), ← hr, notifyCheck_eq]
  rfl

/-- A tag pass waits for the room of its four words (R276). -/
theorem completeTag_waits (hfull : s.params.outDepth < s.outQ.length + 4) : completeTag s = none := by
  by_contra hne
  obtain ⟨t, ht⟩ := Option.ne_none_iff_exists'.1 hne
  obtain ⟨_, _, _, _, hroom, _⟩ := completeTag_some s ht
  omega

/-- Settles O29: the turn is the completion of the pass in flight, with the core call of its kind. -/
theorem engineCompletesTheOtherPasses : Obligations.EngineCompletesTheOtherPasses := by
  unfold Obligations.EngineCompletesTheOtherPasses
  intro s rest hinv hsched
  obtain ⟨m, hm⟩ := hinv.exists_crMode
  have hreads := coreReads hm hinv.cr_legal.2 s.key
  refine ⟨fun hp => ?keyPrep, fun hp => ?init, fun hp hroom => ?tag, fun hp hfull => ?waits⟩
  case keyPrep =>
    have hen := hinv.enabled_of_pass hp
    exact step_engine_some hsched ((engineStep_keyPrep hp).trans (completeKeyPrep_enabled hen))
  case init =>
    have hen := hinv.enabled_of_pass hp
    exact ⟨m, _, _, _, _, _, _, hm, hreads, rfl, rfl,
      step_engine_some hsched ((engineStep_init hp).trans (completeInit_enabled hm hen rfl))⟩
  case tag =>
    have hen := hinv.enabled_of_pass hp
    exact ⟨m, _, _, _, _, _, _, hm, hreads, rfl, rfl, Vector.length_toList,
      step_engine_some hsched ((engineStep_tag hp).trans (completeTag_enabled hm hen hroom rfl))⟩
  case waits => exact step_engine_none hsched ((engineStep_tag hp).trans (completeTag_waits hfull))

/-! ### The DMA agents -/

theorem dmaInStep_word {w : Word} {ws : List Word} (hsrc : s.src = w :: ws) (hen : dien s.dmacr = true)
    (hroom : s.inQ.length < s.params.inDepth) : dmaInStep s = some { s with
      inQ := s.inQ ++ [w], src := ws
      events := s.events ++ notifications s { s with inQ := s.inQ ++ [w] } ++ [.dmaIn w] } := by
  have hreq : s.dmaInRequest = true := by
    rw [State.dmaInRequest, hen, State.ifnf, decide_eq_true hroom]
    rfl
  obtain ⟨t, ht⟩ : ∃ t, dmaInStep s = some t := by
    unfold dmaInStep
    rw [hsrc]
    exact ⟨_, if_pos hreq⟩
  obtain ⟨w', hsrc', _, _, hmove⟩ := dmaInStep_some s ht
  obtain ⟨rfl, hws⟩ := List.cons.inj (hsrc.symm.trans hsrc')
  rw [← hws] at hmove
  rw [ht, hmove]

theorem dmaInStep_waits (h : s.src = [] ∨ dien s.dmacr = false ∨ s.params.inDepth ≤ s.inQ.length) :
    dmaInStep s = none := by
  obtain hempty | hoff | hfull := h
  · unfold dmaInStep
    rw [hempty]
  · exact dmaInStep_detached s hoff
  · by_contra hne
    obtain ⟨t, ht⟩ := Option.ne_none_iff_exists'.1 hne
    obtain ⟨_, _, _, hroom, _⟩ := dmaInStep_some s ht
    omega

theorem dmaOutStep_word {w : Word} {q : List Word} (hout : s.outQ = w :: q) (hen : doen s.dmacr = true) :
    dmaOutStep s = some { s with
      outQ := q, snk := s.snk ++ [w]
      events := s.events ++ notifications s { s with outQ := q } ++ [.dmaOut w] } := by
  have hreq : s.dmaOutRequest = true := by
    rw [State.dmaOutRequest, hen, State.ofne, hout]
    rfl
  obtain ⟨t, ht⟩ : ∃ t, dmaOutStep s = some t := by
    unfold dmaOutStep
    rw [if_pos hreq]
    split <;> exact ⟨_, rfl⟩
  obtain ⟨w', hout', _, hmove⟩ := dmaOutStep_some s ht
  obtain ⟨rfl, hq⟩ := List.cons.inj (hout.symm.trans hout')
  rw [← hq] at hmove
  rw [ht, hmove]

theorem dmaOutStep_waits (h : s.outQ = [] ∨ doen s.dmacr = false) : dmaOutStep s = none := by
  obtain hempty | hoff := h
  · by_contra hne
    obtain ⟨t, ht⟩ := Option.ne_none_iff_exists'.1 hne
    obtain ⟨_, hout, _⟩ := dmaOutStep_some s ht
    exact absurd (hout.symm.trans hempty) nofun
  · exact dmaOutStep_detached s hoff

/-- Settles O30: each direction moves its word where it is enabled and can, and waits otherwise. -/
theorem dmaAgentsMoveOneWord : Obligations.DmaAgentsMoveOneWord := by
  unfold Obligations.DmaAgentsMoveOneWord
  refine fun s rest => ⟨fun hsched => ?_, fun hsched => ?_⟩ <;>
    simp only [step_agent_sched hsched nofun, agentStep]
  · refine ⟨fun w ws hsrc hen hroom => ?_, fun hwait => ?_⟩
    · rw [dmaInStep_word hsrc hen hroom]
      rfl
    · rw [dmaInStep_waits hwait]
      rfl
  · refine ⟨fun w q hout hen => ?_, fun hwait => ?_⟩
    · rw [dmaOutStep_word hout hen]
      rfl
    · rw [dmaOutStep_waits hwait]
      rfl

end Sys2Proof.Machine
end

section
/-! The CR write and the pass: the abort when CRYPEN is cleared (R277), and the pass without input that starts on the edge
of its condition (R278). -/

namespace Sys2Proof.Machine

variable {s : State}

/-! ### The abort -/

/-- A legal CR write does not flush while BUSY is 1 (R201). -/
theorem not_flush_of_busy {v : Word} (hv : crWriteLegal v s) (hb : s.busy = true) : v.getLsbD 14 = false :=
  Bool.eq_false_iff.2 fun hflush => hv.2.2 ⟨hflush, hb⟩

/-- A CR write that clears CRYPEN during a pass aborts it and stores the value; FIFOs and IMSCR stay, so nothing is
notified (R201, R277, R282). -/
theorem exec_wCr_abort (h : BlockInv s) {p : Pass} {v : Word} (hp : s.pass = some p) (hv : crWriteLegal v s)
    (hoff : v.getLsbD 15 = false) : exec (.wCr 4 v) s = .next { abortPass s with cr := v &&& 0x000B83FC } := by
  have hb : s.busy = true := h.busy_of_pass hp
  have hsame := h.sameConfig_of_busy hb hv
  have hnew : crypen (crStored v) = false := (crypen_crStored v).trans hoff
  have happly : crApply v s = { abortPass s with cr := v &&& 0x000B83FC } := by
    rw [crApply_abort s v hb (h.enabled_of_pass hp) hnew (not_flush_of_busy hv hb) hsame.ksField_eq hsame.phaseField_eq,
      crStored_eq]
  have hquiet : notifyCheck s (crApply v s) = crApply v s := by
    rw [happly]
    unfold abortPass
    rw [hp]
    cases p <;> exact notifyCheck_eq_self rfl rfl rfl rfl
  rw [exec_wCr_legal s hv, hquiet, happly]

/-- Settles O23: the write is AbortPass of the pass in flight, which treats a key preparation by itself. -/
theorem clearingCrypenWhileBusyAborts : Obligations.ClearingCrypenWhileBusyAborts := by
  unfold Obligations.ClearingCrypenWhileBusyAborts
  intro s v p hinv hp hv hoff
  refine ⟨_, exec_wCr_abort hinv hp hv hoff, ?_⟩
  by_cases hk : p = .keyPrep
  · subst hk
    rw [abortPass_keyPrep s hp]
    exact ⟨rfl, fun _ => ⟨rfl, rfl, rfl, rfl⟩, fun hne => absurd rfl hne⟩
  · rw [abortPass_other s hp hk]
    exact ⟨rfl, fun hkp => absurd hkp hk, fun _ => rfl⟩

/-! ### The conditions of the passes without input -/

theorem keyPrepCondition_iff (c : Word) : keyPrepCondition c = true ↔
    crypen c = true ∧ crMode c = some .aesKeyPrep := by
  unfold keyPrepCondition
  rw [Bool.and_eq_true, beq_iff_eq]

theorem initCondition_iff (c : Word) : initCondition c = true ↔
    crypen c = true ∧ (crMode c = some .aesGcm ∨ crMode c = some .aesCcm) ∧ phaseOf c = .init := by
  have haead : (crMode c).any Mode.isAead = true ↔ crMode c = some .aesGcm ∨ crMode c = some .aesCcm := by
    cases crMode c with
    | none => simp
    | some m => simp [Mode.isAead_iff]
  unfold initCondition
  rw [Bool.and_eq_true, Bool.and_eq_true, beq_iff_eq, haead, and_assoc]

theorem finalInput_words_eq_zero_iff (f : Config.FinalInput) : f.words = 0 ↔ f = .noWords := by cases f <;> decide

theorem tagCondition_iff (p : Config.Params) (c : Word) : tagCondition p c = true ↔
    crypen c = true ∧ phaseOf c = .final
      ∧ ((crMode c = some .aesGcm ∧ p.finalGcm = .noWords) ∨ (crMode c = some .aesCcm ∧ p.finalCcm = .noWords)) := by
  have hmode : (crMode c).any (fun m => m.isAead && finalInWords p m == 0) = true ↔
      (crMode c = some .aesGcm ∧ p.finalGcm = .noWords) ∨ (crMode c = some .aesCcm ∧ p.finalCcm = .noWords) := by
    cases crMode c with
    | none => simp
    | some m => cases m <;> simp [Mode.isAead, finalInWords, finalInput_words_eq_zero_iff]
  unfold tagCondition
  rw [Bool.and_eq_true, Bool.and_eq_true, beq_iff_eq, hmode, and_assoc, and_comm (a := _ ∨ _)]

/-- The conditions name different modes or different phases: no word meets two of them. -/
theorem not_initCondition_of_keyPrepCondition {c : Word} (h : keyPrepCondition c = true) : ¬initCondition c = true := by
  rw [keyPrepCondition_iff] at h
  rw [initCondition_iff, h.2]
  rintro ⟨_, hm | hm, _⟩ <;> cases hm

theorem not_tagCondition_of_keyPrepCondition {c : Word} (p : Config.Params) (h : keyPrepCondition c = true) :
    ¬tagCondition p c = true := by
  rw [keyPrepCondition_iff] at h
  rw [tagCondition_iff, h.2]
  rintro ⟨_, _, ⟨hm, _⟩ | ⟨hm, _⟩⟩ <;> cases hm

theorem not_tagCondition_of_initCondition {c : Word} (p : Config.Params) (h : initCondition c = true) :
    ¬tagCondition p c = true := by
  obtain ⟨_, _, hinit⟩ := (initCondition_iff c).1 h
  rw [tagCondition_iff, hinit]
  rintro ⟨_, hfinal, _⟩
  cases hfinal

/-! ### The pass that starts -/

section
variable {old new : Word} (hb : s.busy = false)
include hb

theorem startZeroInputPass_keyPrep (hnew : keyPrepCondition new = true) (hold : keyPrepCondition old = false) :
    startZeroInputPass old new s = { s with decKeyReady := false }.startPass .keyPrep .keyPrep [] := by
  obtain ⟨_, e⟩ | ⟨hnot, _⟩ | ⟨hnot, _⟩ | ⟨hnot, _⟩ := startZeroInputPass_cases s old new hb
  · exact e
  all_goals exact absurd ⟨hnew, hold⟩ hnot

theorem startZeroInputPass_init (hnew : initCondition new = true) (hold : initCondition old = false) :
    startZeroInputPass old new s = s.startPass .init .init [] := by
  obtain ⟨⟨hkey, _⟩, _⟩ | ⟨_, _, e⟩ | ⟨_, hnot, _⟩ | ⟨_, hnot, _⟩ := startZeroInputPass_cases s old new hb
  · exact absurd hnew (not_initCondition_of_keyPrepCondition hkey)
  · exact e
  all_goals exact absurd ⟨hnew, hold⟩ hnot

theorem startZeroInputPass_tag (hnew : tagCondition s.params new = true) (hold : tagCondition s.params old = false)
    (hdone : s.finalDone = false) : startZeroInputPass old new s = s.startPass .tag .tag [] := by
  obtain ⟨⟨hkey, _⟩, _⟩ | ⟨_, ⟨hinit, _⟩, _⟩ | ⟨_, _, _, e⟩ | ⟨_, _, hnot, _⟩ := startZeroInputPass_cases s old new hb
  · exact absurd hnew (not_tagCondition_of_keyPrepCondition s.params hkey)
  · exact absurd hnew (not_tagCondition_of_initCondition s.params hinit)
  · exact e
  · exact absurd ⟨hnew, hold, hdone⟩ hnot

theorem startZeroInputPass_none (hkey : ¬(keyPrepCondition new = true ∧ keyPrepCondition old = false))
    (hinit : ¬(initCondition new = true ∧ initCondition old = false))
    (htag : ¬(tagCondition s.params new = true ∧ tagCondition s.params old = false ∧ s.finalDone = false)) :
    startZeroInputPass old new s = s := by
  obtain ⟨hedge, _⟩ | ⟨_, hedge, _⟩ | ⟨_, _, hedge, _⟩ | ⟨_, _, _, e⟩ := startZeroInputPass_cases s old new hb
  · exact absurd hedge hkey
  · exact absurd hedge hinit
  · exact absurd hedge htag
  · exact e

end

/-- What a CR write stores, flushes and clears while the engine is idle, before a pass starts (R201). -/
def State.storeCr (v : Word) (s : State) : State := { s with
  cr := crStored v
  inQ := if v.getLsbD 14 then [] else s.inQ
  outQ := if v.getLsbD 14 then [] else s.outQ
  decKeyReady := if ksField s.cr = ksField (crStored v) then s.decKeyReady else false
  finalDone := if phaseField s.cr = phaseField (crStored v) then s.finalDone else false }

theorem exec_wCr_idle {v : Word} (hb : s.busy = false) (hv : crWriteLegal v s) : exec (.wCr 4 v) s
    = .next (notifyCheck s (startZeroInputPass s.cr (v &&& 0x000B83FC) (s.storeCr v))) := by
  rw [exec_wCr_legal s hv, crApply_idle s v hb, ← crStored_eq]
  rfl

/-- NotifyCheck does not change what is owed. -/
theorem notifications_notifyCheck (before t : State) :
    notifications before (notifyCheck before t) = notifications before t := by
  rw [notifyCheck_eq]
  rfl

/-- A step's own entries come before its notifications (log entry 11). -/
theorem notifyCheck_events_of_append {t : State} {es : List Event} (h : t.events = s.events ++ es) :
    (notifyCheck s t).events = s.events ++ es ++ notifications s (notifyCheck s t) := by
  rw [notifyCheck_events, notifications_notifyCheck, h]

/-- Settles O24: the write stores, and then at most one of three conditions, which exclude each other, has an edge. -/
theorem crWriteStartsZeroInputPasses : Obligations.CrWriteStartsZeroInputPasses := by
  unfold Obligations.CrWriteStartsZeroInputPasses
  intro s v hinv hb hv new kp ini tg
  have hkp : ∀ c, kp c ↔ keyPrepCondition c = true := fun c => (keyPrepCondition_iff c).symm
  have hini : ∀ c, ini c ↔ initCondition c = true := fun c => (initCondition_iff c).symm
  have htg : ∀ c, tg c ↔ tagCondition s.params c = true := fun c => (tagCondition_iff s.params c).symm
  have hbusy : (s.storeCr v).busy = false := hb
  obtain ⟨_, hpass, hinflight⟩ := hinv.idle hb
  have hchanges := startZeroInputPass_changes (s.storeCr v) s.cr new
  have hfinal : (startZeroInputPass s.cr new (s.storeCr v)).finalDone = (s.storeCr v).finalDone := by rw [hchanges]
  simp only [hkp, hini, htg, Bool.not_eq_true]
  refine ⟨_, exec_wCr_idle hb hv, ?keyPrep, ?init, ?tag, ?none, ?iv, ?csw, ?csf⟩
  case keyPrep =>
    rintro ⟨hnew, hold⟩
    rw [startZeroInputPass_keyPrep hbusy hnew hold]
    exact ⟨notifyCheck_pass .., notifyCheck_busy .., notifyCheck_inflight .., notifyCheck_decKeyReady ..,
      notifyCheck_events_of_append rfl⟩
  case init =>
    rintro ⟨hnew, hold⟩
    rw [startZeroInputPass_init hbusy hnew hold]
    exact ⟨notifyCheck_pass .., notifyCheck_busy .., notifyCheck_inflight .., notifyCheck_events_of_append rfl⟩
  case tag =>
    rintro ⟨hnew, hold⟩ hdone
    rw [notifyCheck_finalDone, hfinal] at hdone
    rw [startZeroInputPass_tag hbusy hnew hold hdone]
    exact ⟨notifyCheck_pass .., notifyCheck_busy .., notifyCheck_inflight .., notifyCheck_events_of_append rfl⟩
  case none =>
    intro hkey hinit htag
    rw [notifyCheck_finalDone, hfinal] at htag
    rw [startZeroInputPass_none hbusy hkey hinit htag]
    have hevents := notifyCheck_events_of_append (t := s.storeCr v) (List.append_nil s.events).symm
    rw [List.append_nil] at hevents
    simp only [notifyCheck_pass, notifyCheck_busy, notifyCheck_inflight, notifyCheck_decKeyReady]
    refine ⟨hpass, hb, hinflight, hevents, fun hks => ?_⟩
    exact if_pos (hks.trans (ksField_crStored v).symm)
  all_goals
    simp only [notifyCheck_iv, notifyCheck_csw, notifyCheck_csf]
    rw [hchanges]
    rfl

end Sys2Proof.Machine
end

section
/-! Every register transaction: its row is a CR write or moves ports alone, what it does during a pass (R279), and the
notifications that it and every agent's turn owe (R282). -/

namespace Sys2Proof.Machine

variable {s t u : State}

/-! ### A transaction and its row -/

/-- Every instruction that is no operation is one transaction, by its row's rule (R225). -/
theorem exec_transaction {i : Instr} (h : i.isOp = false) :
    ∃ width row, IsRow row ∧ ∀ s, exec i s = .next (hostTransaction width row s) := by
  cases i
  case rCr => exact ⟨_, _, .rCr, fun _ => rfl⟩
  case wCr => exact ⟨_, _, .wCr _, fun _ => rfl⟩
  case rSr => exact ⟨_, _, .rSr, fun _ => rfl⟩
  case wSr => exact ⟨_, _, .wSr _, fun _ => rfl⟩
  case rDin => exact ⟨_, _, .rDin, fun _ => rfl⟩
  case wDin => exact ⟨_, _, .wDin _, fun _ => rfl⟩
  case rDout => exact ⟨_, _, .rDout, fun _ => rfl⟩
  case wDout => exact ⟨_, _, .wDout _, fun _ => rfl⟩
  case rDmacr => exact ⟨_, _, .rDmacr, fun _ => rfl⟩
  case wDmacr => exact ⟨_, _, .wDmacr _, fun _ => rfl⟩
  case rImscr => exact ⟨_, _, .rImscr, fun _ => rfl⟩
  case wImscr => exact ⟨_, _, .wImscr _, fun _ => rfl⟩
  case rRisr => exact ⟨_, _, .rRisr, fun _ => rfl⟩
  case wRisr => exact ⟨_, _, .wRisr _, fun _ => rfl⟩
  case rMisr => exact ⟨_, _, .rMisr, fun _ => rfl⟩
  case wMisr => exact ⟨_, _, .wMisr _, fun _ => rfl⟩
  case rKey => exact ⟨_, _, .rKey _, fun _ => rfl⟩
  case wKey => exact ⟨_, _, .wKey _ _, fun _ => rfl⟩
  case rIv => exact ⟨_, _, .rIv _, fun _ => rfl⟩
  case wIv => exact ⟨_, _, .wIv _ _, fun _ => rfl⟩
  case rCswLo | rCswHi => exact ⟨_, _, .rCsw _, fun _ => rfl⟩
  case wCswLo | wCswHi => exact ⟨_, _, .wCsw _ _, fun _ => rfl⟩
  case rCsfLo | rCsfHi => exact ⟨_, _, .rCsf _, fun _ => rfl⟩
  case wCsfLo | wCsfHi => exact ⟨_, _, .wCsf _ _, fun _ => rfl⟩
  case busErrUnmapped90 | busErrUnmappedA0 | busErrUnmappedC0 | busErrMisalignedOdd | busErrMisalignedEven =>
    exact ⟨_, _, .busErr, fun _ => rfl⟩
  all_goals cases h

/-- Everything a host's transaction can do: one fault and nothing else, or its row's effect, the notifications it owes
and the value read. -/
theorem hostTransaction_cases (width : Nat) (row : Row) (s : State) :
    (∃ k, hostTransaction width row s = s.raiseFault k)
      ∨ ∃ t x, row s = .done t x
          ∧ hostTransaction width row s = { notifyCheck s t with reads := t.reads ++ x.toList } := by
  unfold hostTransaction
  obtain ⟨k, e, _⟩ | ⟨t, x, _, hrow, e⟩ := transaction_cases s width row
  · refine .inl ⟨k, ?_⟩
    rw [e]
    exact congrArg (fun l => { s.raiseFault k with reads := l }) (List.append_nil _)
  · refine .inr ⟨t, x, hrow, ?_⟩
    simp only [e, notifyCheck_reads]

/-- What a row other than W_CR can change: DMACR, IMSCR, the register files and the FIFOs; and during a pass the
register files and `decKeyReady` stay (R217 to R223). -/
structure PortMoves (s t : State) : Prop where
  frame : t = { s with
    dmacr := t.dmacr, imscr := t.imscr, key := t.key, iv := t.iv, csw := t.csw, csf := t.csf, inQ := t.inQ
    outQ := t.outQ, decKeyReady := t.decKeyReady, draws := t.draws }
  busy : s.busy = true → t = { s with
    dmacr := t.dmacr, imscr := t.imscr, inQ := t.inQ, outQ := t.outQ, draws := t.draws }

/-- A row that stores in a register file while idle and faults while busy moves ports alone. -/
theorem PortMoves.of_shielded {k : FaultKind} {x : Option Word}
    (h : (if s.busy then .fault k else .done u none) = RowResult.done t x)
    (hu : u = { s with key := u.key, iv := u.iv, csw := u.csw, csf := u.csf, decKeyReady := u.decKeyReady }) :
    PortMoves s t := by
  split at h
  · cases h
  · next hb =>
    cases h
    rw [hu]
    exact ⟨rfl, fun hbusy => absurd hbusy hb⟩

/-- A row that reads a register file while idle and draws a word while busy moves ports alone. -/
theorem PortMoves.of_draw {x w : Word} {y : Option Word}
    (h : (if s.busy then .done s.draw.2 (some w) else .done s (some x)) = RowResult.done t y) : PortMoves s t := by
  split at h
  · cases h; exact ⟨rfl, fun _ => rfl⟩
  · cases h; exact ⟨rfl, fun _ => rfl⟩

theorem row_cases {row : Row} (hr : IsRow row) :
    (∃ v, row = rowWCr v) ∨ ∀ {s t : State} {x : Option Word}, row s = .done t x → PortMoves s t := by
  cases hr
  case wCr v => exact .inl ⟨v, rfl⟩
  all_goals refine .inr fun {s t x} h => ?_
  case wDin => unfold rowWDin at h; split at h <;> cases h; exact ⟨rfl, fun _ => rfl⟩
  case rDout => unfold rowRDout at h; split at h <;> cases h; exact ⟨rfl, fun _ => rfl⟩
  case wKey | wIv | wCsw | wCsf => exact .of_shielded h rfl
  case rIv | rCsw | rCsf => exact .of_draw h
  case busErr => cases h
  all_goals cases h; exact ⟨rfl, fun _ => rfl⟩

/-! ### A transaction during a pass -/

/-- Words that agree on configuration, phase and CRYPEN agree on every stored bit of CR (R32). -/
theorem and_stored_congr {a b : Word} (h : SameConfig a b) (hen : crypen a = crypen b) :
    a &&& 0x000B83FC = b &&& 0x000B83FC := by
  have hsplit : ∀ w : Word, w &&& 0x000B83FC = w &&& cfgMask ||| w &&& phMask ||| w &&& crypenMask := fun w => by
    rw [← BitVec.and_or_distrib_left, ← BitVec.and_or_distrib_left]
    rfl
  have hbit : ∀ w : Word, w &&& crypenMask = if crypen w then crypenMask else 0 := fun w => BitVec.and_twoPow w 15
  rw [hsplit a, hsplit b, h.cfg, h.phase, hbit a, hbit b, hen]

/-- A legal CR write during a pass that leaves CRYPEN 1 stores what CR holds, and so changes nothing (R201, R279). -/
theorem exec_wCr_running (h : BlockInv s) {p : Pass} {v : Word} (hp : s.pass = some p) (hv : crWriteLegal v s)
    (hon : v.getLsbD 15 = true) : exec (.wCr 4 v) s = .next s := by
  have hb : s.busy = true := h.busy_of_pass hp
  have hnew : crypen (crStored v) = true := (crypen_crStored v).trans hon
  have hsame := h.sameConfig_of_busy hb hv
  have hstored : crStored v = s.cr := by
    have hbits := and_stored_congr hsame ((h.enabled_of_pass hp).trans hnew.symm)
    rw [← crStored_eq, ← crStored_eq, crStored_of_crLegal h.cr_legal,
      crStored_of_crLegal (crLegal_crStored hv.1)] at hbits
    exact hbits.symm
  have happly : crApply v s = s := by
    rw [crApply_running s v hb (.inr hnew) (not_flush_of_busy hv hb), hstored, if_pos rfl, if_pos rfl]
  rw [exec_wCr_legal s hv, happly, notifyCheck_self]

/-- What a CR write can do during a pass: fault, abort it, or change nothing (R201, R277, R279). -/
theorem hostTransaction_wCr_busy (h : BlockInv s) {p : Pass} (hp : s.pass = some p) (width : Nat) (v : Word) :
    (∃ k, hostTransaction width (rowWCr v) s = s.raiseFault k)
      ∨ hostTransaction width (rowWCr v) s = { abortPass s with cr := v &&& 0x000B83FC }
      ∨ hostTransaction width (rowWCr v) s = s := by
  by_cases hw : width = 4
  · subst hw
    have hexec : exec (.wCr 4 v) s = .next (hostTransaction 4 (rowWCr v) s) := rfl
    cases hf : crFault v s with
    | some k => exact .inl ⟨k, Host.Outcome.next.inj (hexec.symm.trans (exec_wCr_fault s hf))⟩
    | none =>
      have hv := (crFault_none_iff s v).1 hf
      cases hen : v.getLsbD 15 with
      | false => exact .inr (.inl (Host.Outcome.next.inj (hexec.symm.trans (exec_wCr_abort h hp hv hen))))
      | true => exact .inr (.inr (Host.Outcome.next.inj (hexec.symm.trans (exec_wCr_running h hp hv hen))))
  · exact .inl ⟨_, hostTransaction_width s hw _⟩

/-- AbortPass says which pass it ends (R277). -/
theorem abortPass_events {p : Pass} (h : s.pass = some p) :
    (abortPass s).pass = none ∧ (abortPass s).events = s.events ++ [.abort p] := by
  unfold abortPass
  rw [h]
  cases p <;> exact ⟨rfl, rfl⟩

/-- Settles O35: a CR write faults, aborts or changes nothing, and no other row reaches what the completion reads. -/
theorem argumentsOfAPassAreStable : Obligations.ArgumentsOfAPassAreStable := by
  unfold Obligations.ArgumentsOfAPassAreStable
  intro i s t p hinv hop hp hexec
  obtain ⟨width, row, hr, htrans⟩ := exec_transaction hop
  obtain rfl : hostTransaction width row s = t := Host.Outcome.next.inj ((htrans s).symm.trans hexec)
  obtain ⟨v, rfl⟩ | hport := row_cases hr
  · obtain hfault | habort | hsame := hostTransaction_wCr_busy hinv hp width v
    · exact .inl hfault
    · rw [habort]
      exact .inr (.inl (abortPass_events hp))
    · rw [hsame]
      exact .inr (.inr ⟨hp, rfl, rfl, rfl, rfl, rfl, rfl⟩)
  · obtain hfault | ⟨t, x, hrow, e⟩ := hostTransaction_cases width row s
    · exact .inl hfault
    · rw [e]
      simp only [notifyCheck_pass, notifyCheck_inflight, notifyCheck_key, notifyCheck_iv, notifyCheck_csw,
        notifyCheck_csf, notifyCheck_cr]
      rw [(hport hrow).busy (hinv.busy_of_pass hp)]
      exact .inr (.inr ⟨hp, rfl, rfl, rfl, rfl, rfl, rfl⟩)

/-! ### Notifications -/

@[simp] theorem notifications_self (s : State) : notifications s s = [] := by simp [notifications]

theorem filter_notifications (before after : State) :
    (notifications before after).filter Event.isNotify = notifications before after :=
  List.filter_eq_self.2 (List.all_eq_true.1 (notifications_isNotify before after))

/-- From `s` to `t` the history gains entries of which none is a notification. -/
def AppendsSilently (s t : State) : Prop := ∃ es, t.events = s.events ++ es ∧ es.filter Event.isNotify = []

namespace AppendsSilently

theorem of_eq (h : t.events = s.events) : AppendsSilently s t := ⟨[], by rw [h, List.append_nil], rfl⟩

theorem trans (h : AppendsSilently s t) (k : AppendsSilently t u) : AppendsSilently s u := by
  obtain ⟨es, he, hes⟩ := h
  obtain ⟨es', he', hes'⟩ := k
  exact ⟨es ++ es', by rw [he', he, List.append_assoc], by rw [List.filter_append, hes, hes', List.append_nil]⟩

theorem emit (h : t.events = s.events) {e : Event} (he : e.isNotify = false) : AppendsSilently s (t.emit e) :=
  ⟨[e], by rw [State.emit_events, h], by simp [he]⟩

theorem abortPass (s : State) : AppendsSilently s (abortPass s) := by
  unfold Machine.abortPass
  split
  · exact of_eq rfl
  · exact emit rfl rfl
  · exact emit rfl rfl

theorem startZeroInputPass (old new : Word) (s : State) : AppendsSilently s (startZeroInputPass old new s) := by
  unfold Machine.startZeroInputPass
  split_ifs
  · exact of_eq rfl
  · exact emit rfl rfl
  · exact emit rfl rfl
  · exact emit rfl rfl
  · exact of_eq rfl

/-- A CR write's own entries are an abort and the start of a pass. -/
theorem crApply (v : Word) (s : State) : AppendsSilently s (crApply v s) := by
  have habort : AppendsSilently s (crAborted s v) := by
    unfold crAborted
    split
    · exact abortPass s
    · exact of_eq rfl
  rw [crApply_eq]
  exact (habort.trans (of_eq rfl)).trans (startZeroInputPass _ _ _)

/-- No row emits a notification by itself: the transaction step does, after it (R225, R282). -/
theorem row {row : Row} (hr : IsRow row) {x : Option Word} (h : row s = .done t x) : AppendsSilently s t := by
  obtain ⟨v, rfl⟩ | hport := row_cases hr
  · unfold rowWCr at h
    split at h
    · cases h
    · cases h
      exact crApply v s
  · exact of_eq (by rw [(hport h).frame])

end AppendsSilently

/-- From `s` to `t` the history gains the notifications that the change of MISR owes, and no other (R282). -/
def Notifies (s t : State) : Prop :=
  ∃ es, t.events = s.events ++ es ∧ es.filter Event.isNotify = notifications s t

namespace Notifies

theorem refl (s : State) : Notifies s s := ⟨[], (List.append_nil _).symm, (notifications_self s).symm⟩

theorem raiseFault (s : State) (k : FaultKind) : Notifies s (s.raiseFault k) := refl s

theorem notifyCheck (h : AppendsSilently s t) : Notifies s (notifyCheck s t) := by
  obtain ⟨es, he, hsilent⟩ := h
  refine ⟨es ++ notifications s t, ?_, ?_⟩
  · rw [notifyCheck_events, he, List.append_assoc]
  · rw [List.filter_append, hsilent, filter_notifications, notifications_notifyCheck, List.nil_append]

theorem endPass (k : PassKind) (h : t.events = s.events := by rfl) :
    Notifies s (Machine.notifyCheck s (t.endPass k)) :=
  notifyCheck (.emit h rfl)

theorem engineStep (h : engineStep s = some t) : Notifies s t := by
  unfold Machine.engineStep at h
  split at h
  · obtain ⟨_, _, _, _, _, _, _, _, ⟨_, rfl⟩ | ⟨_, rfl⟩⟩ := startBlock_some s h
    · exact raiseFault s _
    · exact notifyCheck (.emit rfl rfl)
  · obtain ⟨_, _, _, _, _, rfl⟩ := completeData_some s h
    exact endPass _
  · obtain ⟨_, rfl⟩ := completeKeyPrep_some s h
    exact endPass _
  · obtain ⟨_, _, _, _, _, rfl⟩ := completeInit_some s h
    exact endPass _
  · obtain ⟨_, _, _, _, _, _, rfl⟩ := completeTag_some s h
    exact endPass _

/-- A DMA step's notifications stand before its own entry (log entry 11). -/
theorem of_dma {e : Event} (ht : t.events = s.events ++ notifications s u ++ [e]) (he : e.isNotify = false)
    (hu : notifications s t = notifications s u) : Notifies s t := by
  refine ⟨notifications s u ++ [e], by rw [ht, List.append_assoc], ?_⟩
  rw [List.filter_append, filter_notifications, hu]
  simp [he]

theorem dmaInStep (h : dmaInStep s = some t) : Notifies s t := by
  obtain ⟨w, _, _, _, ht⟩ := dmaInStep_some s h
  rw [ht]
  exact of_dma (u := { s with inQ := s.inQ ++ [w] }) (e := .dmaIn w) rfl rfl rfl

theorem dmaOutStep (h : dmaOutStep s = some t) : Notifies s t := by
  obtain ⟨w, _, _, ht⟩ := dmaOutStep_some s h
  rw [ht]
  exact of_dma (u := { s with outQ := t.outQ }) (e := .dmaOut w) rfl rfl rfl

theorem agentStep (s : State) (a : Turn) : Notifies s (agentStep a s) :=
  agentStep_of_enabled (refl s) (fun _ => engineStep) (fun _ => dmaInStep) (fun _ => dmaOutStep) a

theorem hostTransaction {row : Row} (hr : IsRow row) (width : Nat) (s : State) :
    Notifies s (hostTransaction width row s) := by
  obtain ⟨k, e⟩ | ⟨t, x, hrow, e⟩ := hostTransaction_cases width row s
  · rw [e]
    exact raiseFault s k
  · rw [e]
    exact notifyCheck (.row hr hrow)

end Notifies

/-- Settles O20: a row and a pass emit no notification by themselves, and the check after them emits what is owed. -/
theorem notificationsFollowEveryMisrChange : Obligations.NotificationsFollowEveryMisrChange := by
  unfold Obligations.NotificationsFollowEveryMisrChange
  refine ⟨fun i s t hop hexec => ?_, fun a s => Notifies.agentStep s a⟩
  obtain ⟨width, row, hr, htrans⟩ := exec_transaction hop
  obtain rfl : hostTransaction width row s = t := Host.Outcome.next.inj ((htrans s).symm.trans hexec)
  exact Notifies.hostTransaction hr width s

end Sys2Proof.Machine
end

section
/-! What the moves of the other agents keep: the registers that no agent writes, every property that each agent's turn
keeps, and Quiet (R113, R341). -/

namespace Sys2Proof.Machine

variable {s t u : State}

/-! ### One engine step -/

/-- What an engine step does to the FIFOs and to the key preparation: it takes from the front of the input FIFO, appends
to the output FIFO, and never makes a prepared key unprepared (R272 to R276). -/
structure EngineMoves (s t : State) : Prop where
  cr : t.cr = s.cr
  ctl : t.ctl = s.ctl
  dmacr : t.dmacr = s.dmacr
  inQ : t.inQ.length ≤ s.inQ.length
  outQ : s.outQ <+: t.outQ
  ready : s.decKeyReady = true → t.decKeyReady = true
  keyPrep : s.pass = some .keyPrep → t.decKeyReady = true

theorem engineMoves_of_engineStep (h : engineStep s = some t) : EngineMoves s t := by
  unfold engineStep at h
  split at h
  · next hp =>
    obtain ⟨_, bi, _, _, _, _, _, _, ⟨_, rfl⟩ | ⟨_, rfl⟩⟩ := startBlock_some s h
    · exact ⟨rfl, rfl, rfl, le_rfl, ⟨[], List.append_nil _⟩, id, by simp [hp]⟩
    · exact ⟨by simp, by simp, by simp, by simp, by simp, by simp, by simp [hp]⟩
  · next hp =>
    obtain ⟨_, _, _, _, _, rfl⟩ := completeData_some s h
    exact ⟨by simp, by simp, by simp, by simp, by simp, by simp, by simp [hp]⟩
  · obtain ⟨_, rfl⟩ := completeKeyPrep_some s h
    exact ⟨by simp, by simp, by simp, by simp, by simp, by simp, by simp⟩
  · next hp =>
    obtain ⟨_, _, _, _, _, rfl⟩ := completeInit_some s h
    exact ⟨by simp, by simp, by simp, by simp, by simp, by simp, by simp [hp]⟩
  · next hp =>
    obtain ⟨_, _, _, _, _, _, rfl⟩ := completeTag_some s h
    exact ⟨by simp, by simp, by simp, by simp, by simp, by simp, by simp [hp]⟩

/-! ### What every turn keeps -/

namespace AgentMoves

/-- Whatever every agent's turn keeps, the agents' moves keep. -/
theorem induct (h : AgentMoves s t) {P : State → Prop} (hsched : ∀ v l, P v → P { v with sched := l })
    (hagent : ∀ v a, P v → P (agentStep a v)) (hs : P s) : P t := by
  obtain ⟨ts, _, ht⟩ := h.steps
  rw [ht]
  exact hsched _ _ (List.foldlRecOn ts _ hs fun v hv a _ => hagent v a hv)

theorem blockInv (h : AgentMoves s t) (hs : BlockInv s) : BlockInv t :=
  h.induct (fun _ _ hv => hv.of_frame rfl) (fun _ a hv => hv.agentStep a) hs

/-- After the moves of the agents comes a gap: more moves of the agents. -/
theorem gap (h : AgentMoves s t) (hs : BlockInv s) : AgentMoves s t.gap := h.trans (gap_moves t (h.blockInv hs).busy_iff)

section
variable (h : AgentMoves s t)
include h

theorem params_eq : t.params = s.params := by rw [h.host]
theorem cr_eq : t.cr = s.cr := by rw [h.host]
theorem dmacr_eq : t.dmacr = s.dmacr := by rw [h.host]
theorem ctl_eq : t.ctl = s.ctl := by rw [h.host]

/-- A prepared key stays prepared (R62). -/
theorem ready (hr : s.decKeyReady = true) : t.decKeyReady = true :=
  h.induct (P := fun v => v.decKeyReady = true) (fun _ _ hv => hv)
    (fun v a hv => agentStep_of_enabled (P := fun w => w.decKeyReady = true) hv
      (fun _ e => (engineMoves_of_engineStep e).ready hv)
      (fun _ e => by obtain ⟨_, _, _, _, ht⟩ := dmaInStep_some v e; rw [ht]; exact hv)
      (fun _ e => by obtain ⟨_, _, _, ht⟩ := dmaOutStep_some v e; rw [ht]; exact hv) a) hr

/-- With the input side detached the input FIFO gains no word (R280). -/
theorem inQ_le (hd : dien s.dmacr = false) : t.inQ.length ≤ s.inQ.length :=
  (h.induct (P := fun v => dien v.dmacr = false ∧ v.inQ.length ≤ s.inQ.length) (fun _ _ hv => hv)
    (fun v a hv => agentStep_of_enabled (P := fun w => dien w.dmacr = false ∧ w.inQ.length ≤ s.inQ.length) hv
      (fun _ e => by
        have he := engineMoves_of_engineStep e
        exact ⟨he.dmacr ▸ hv.1, he.inQ.trans hv.2⟩)
      (fun _ e => by rw [dmaInStep_detached v hv.1] at e; cases e)
      (fun _ e => by obtain ⟨_, _, _, ht⟩ := dmaOutStep_some v e; rw [ht]; exact hv) a) ⟨hd, le_rfl⟩).2

/-- With the output side detached the output FIFO keeps its words, oldest first (R281). -/
theorem outQ_grows (hd : doen s.dmacr = false) : s.outQ <+: t.outQ :=
  (h.induct (P := fun v => doen v.dmacr = false ∧ s.outQ <+: v.outQ) (fun _ _ hv => hv)
    (fun v a hv => agentStep_of_enabled (P := fun w => doen w.dmacr = false ∧ s.outQ <+: w.outQ) hv
      (fun _ e => by
        have he := engineMoves_of_engineStep e
        exact ⟨he.dmacr ▸ hv.1, hv.2.trans he.outQ⟩)
      (fun _ e => by obtain ⟨_, _, _, _, ht⟩ := dmaInStep_some v e; rw [ht]; exact hv)
      (fun _ e => by rw [dmaOutStep_detached v hv.1] at e; cases e) a) ⟨hd, ⟨[], List.append_nil _⟩⟩).2

end

end AgentMoves

/-- A gap is moves of the other agents. -/
theorem BlockInv.gap_moves (h : BlockInv s) : AgentMoves s s.gap := Machine.gap_moves s h.busy_iff

theorem BlockInv.gap (h : BlockInv s) : BlockInv s.gap := h.gap_moves.blockInv h

/-- Where the schedule holds no turn, no other agent moves between two host steps. -/
theorem gap_unscheduled (h : s.sched = []) : s.gap = s := by
  unfold State.gap
  rw [h]
  change { s with sched := [] } = s
  rw [← h]

/-! ### Quiet -/

theorem quiet_iff (cr sr dm : Word) : quiet cr sr dm = true ↔ cr.getLsbD 15 = false
    ∨ (sr.getLsbD 0 = true ∧ sr.getLsbD 2 = false ∧ sr.getLsbD 4 = false ∧ dm.getLsbD 0 = false) := by
  simp only [quiet, drainedSr, crypen, dien, Bool.or_eq_true, Bool.and_eq_true, Bool.not_eq_true', and_assoc]

theorem quietNow_iff : s.quietNow = true ↔ crypen s.cr = false ∨ (s.drained = true ∧ dien s.dmacr = false) := by
  simp only [State.quietNow, quiet, drainedSr_srWord, Bool.or_eq_true, Bool.and_eq_true, Bool.not_eq_true']

theorem drained_iff : s.drained = true ↔ s.inQ = [] ∧ s.outQ = [] ∧ s.busy = false := by
  simp only [State.drained, Bool.and_eq_true, beq_iff_eq, List.length_eq_zero_iff, Bool.not_eq_true', and_assoc]

/-- No other agent makes Quiet false. -/
theorem AgentMoves.quietNow (h : AgentMoves s t) (hq : s.quietNow = true) : t.quietNow = true :=
  (h.quiet hq).quietNow hq

/-- A quiet engine is idle. -/
theorem BlockInv.idle_of_quiet (h : BlockInv s) (hq : s.quietNow = true) : s.busy = false := by
  obtain hoff | ⟨hd, _⟩ := quietNow_iff.1 hq
  · exact Bool.eq_false_iff.2 fun hb => absurd (hoff.symm.trans (h.busy_enabled hb)) nofun
  · exact (drained_iff.1 hd).2.2

/-- A quiet block is not active. -/
theorem not_activeNow_of_quiet (hq : s.quietNow = true) : ¬s.activeNow := by
  rintro ⟨hen, hne⟩
  obtain hoff | ⟨hd, _⟩ := quietNow_iff.1 hq
  · exact absurd (hoff.symm.trans hen) nofun
  · exact hne (drained_iff.1 hd)

/-- Settles O34: the formula over the bits, and the moves of an agent while Quiet holds, which are DMA's. -/
theorem quietOutlivesOtherAgents : Obligations.QuietOutlivesOtherAgents := by
  unfold Obligations.QuietOutlivesOtherAgents
  refine ⟨quiet_iff, fun s t a rest hinv hq hsched ha hstep => ?_⟩
  rw [step_agent hsched ha] at hstep
  cases hstep
  exact (agentStep_moves { s with sched := rest } hinv.busy_iff a).quietNow hq

end Sys2Proof.Machine
end

section
/-! The controller operations, one equation each: the checks in their order over the values read, the states between two
host steps named by the gaps before them (R340 to R352, R400 to R405, R432, R461, R464). -/

namespace Sys2Proof.Machine

variable (s : State) {cfg : EngineConfig}

/-! ### Configuration, keys and IV -/

/-- What configure writes once its checks have passed; `cr` is the CR it has read (R342). -/
def configureWrites (cfg : EngineConfig) (cr : Word) (s : State) : State :=
  (s.wr (rowWCr (encodeConfig cfg))).withCtl fun c =>
    { c with
      prepared := if ksField cr = ksCode cfg then c.prepared else false
      cfg := some cfg, tracker := none, keyPrepPending := false }

theorem opConfigure_eq (cfg : EngineConfig) : opConfigure cfg s =
    if quiet s.cr s.gap.srWord s.gap.gap.dmacr = false then s.gap.gap.gap.finish .configure (.err .engineActive)
    else if needsKeyPrep cfg = true ∧ ¬(s.gap.gap.ctl.prepared = true ∧ ksField s.cr = ksCode cfg) then
      s.gap.gap.gap.finish .configure (.err .keyPrepRequired)
    else (configureWrites cfg s.cr s.gap.gap.gap).gap.finish .configure .ok := by
  unfold opConfigure configureWrites
  simp only [rd_rCr, rd_rSr, rd_rDmacr, Bool.not_eq_true', Bool.and_eq_true, Bool.and_eq_false_iff, beq_eq_false_iff_ne,
    bne_iff_ne, not_and_or, Bool.not_eq_true, ne_eq, ite_not]

/-- loadKey forgets the key preparation (R343). -/
def forgetPreparation (c : Controller) : Controller := { c with prepared := false, keyPrepPending := false }

theorem opLoadKey_unconfigured (h : s.ctl.cfg = none) (key : List WordPair) :
    opLoadKey key s = s.finish .loadKey (.err .notConfigured) := by
  unfold opLoadKey
  rw [h]

theorem opLoadKey_eq (h : s.ctl.cfg = some cfg) (key : List WordPair) : opLoadKey key s =
    if key.length ≠ keyPairs cfg then s.finish .loadKey (.err .keySizeMismatch)
    else if s.busy = true then s.gap.finish .loadKey (.err .busyKeyLoad)
    else if quiet s.gap.cr s.srWord s.gap.gap.dmacr = false then s.gap.gap.gap.finish .loadKey (.err .engineActive)
    else ((s.gap.gap.wrAll (keyRows (keyWrites cfg key))).withCtl forgetPreparation).gap.finish .loadKey .ok := by
  unfold opLoadKey forgetPreparation
  rw [h]
  simp only [rd_rCr, rd_rSr, rd_rDmacr, srWord_bit4, Bool.not_eq_true']

theorem opLoadIV_unconfigured (h : s.ctl.cfg = none) (iv : IVMaterial) :
    opLoadIV iv s = s.finish .loadIV (.err .notConfigured) := by
  unfold opLoadIV
  rw [h]

theorem opLoadIV_eq (h : s.ctl.cfg = some cfg) (iv : IVMaterial) : opLoadIV iv s =
    if ivRegs cfg.mode = [] then s.finish .loadIV .ok
    else if s.busy = true then s.gap.finish .loadIV (.err .busyIVLoad)
    else if quiet s.gap.cr s.srWord s.gap.gap.dmacr = false then s.gap.gap.gap.finish .loadIV (.err .engineActive)
    else (s.gap.gap.wrAll (ivRows (ivWrites cfg.mode iv))).gap.finish .loadIV .ok := by
  unfold opLoadIV
  rw [h]
  simp only [rd_rCr, rd_rSr, rd_rDmacr, srWord_bit4, Bool.not_eq_true', List.isEmpty_iff]

/-! ### FIFO flush, enable, disable and busy -/

theorem opFlushFIFOs_eq : opFlushFIFOs s =
    if s.busy = true then s.gap.finish .flushFIFOs (.err .busyFlush)
    else if crypen s.gap.cr = true then s.gap.gap.finish .flushFIFOs (.err .engineActive)
    else (s.gap.gap.wr (rowWCr (s.gap.cr ||| fflushMask))).gap.finish .flushFIFOs .ok := by
  unfold opFlushFIFOs
  simp only [rd_rCr, rd_rSr, srWord_bit4]

/-- What enable writes; `cr` is the CR it has read (R346). -/
def enableWrites (cfg : EngineConfig) (cr : Word) (s : State) : State :=
  (s.wr (rowWCr (cr ||| crypenMask))).withCtl fun c =>
    if crypen cr = false ∧ cfg.mode = .aesKeyPrep then { c with keyPrepPending := true, prepared := false } else c

theorem opEnable_unconfigured (h : s.ctl.cfg = none) : opEnable s = s.finish .enable (.err .notConfigured) := by
  unfold opEnable
  rw [h]

theorem opEnable_eq (h : s.ctl.cfg = some cfg) : opEnable s =
    if cfg.mode.isAead = true ∧ s.ctl.tracker = none then s.finish .enable (.err .phaseOrder)
    else (enableWrites cfg s.cr s.gap).gap.finish .enable .ok := by
  unfold opEnable enableWrites
  rw [h]
  simp only [rd_rCr, Bool.and_eq_true, Bool.not_eq_true', beq_iff_eq, Option.isNone_iff_eq_none]
  by_cases hedge : crypen s.cr = false ∧ cfg.mode = .aesKeyPrep
  · simp only [if_pos hedge]
  · simp only [if_neg hedge]
    rfl

/-- What disable writes; `cr` is the CR it has read (R347). -/
def disableWrites (cr : Word) (s : State) : State :=
  (s.wr (rowWCr (cr &&& ~~~crypenMask))).withCtl fun c => { c with keyPrepPending := false }

theorem opDisable_eq : opDisable s = (disableWrites s.cr s.gap).gap.finish .disable .ok := by
  unfold opDisable disableWrites
  simp only [rd_rCr]

/-- What isBusy notes at the controller when a key preparation that it waits for is over (R348). -/
def notePreparation (s : State) : State :=
  s.withCtl fun c =>
    if s.busy = false ∧ c.keyPrepPending = true then { c with prepared := true, keyPrepPending := false } else c

theorem opIsBusy_eq : opIsBusy s = (notePreparation s).gap.finish .isBusy (.bool s.busy) := by
  unfold opIsBusy notePreparation State.withCtl
  simp only [rd_rSr, srWord_bit4, Bool.and_eq_true, Bool.not_eq_true']
  by_cases h : s.busy = false ∧ s.ctl.keyPrepPending = true
  · simp only [if_pos h]
  · simp only [if_neg h]

/-! ### DMA and interrupts -/

theorem dmaToggle_eq (op : OpName) (m : Word) (b : Bool) : dmaToggle op m b s =
    (s.gap.wr (rowWDmacr (if b then s.dmacr ||| m else s.dmacr &&& ~~~m))).gap.finish op .ok := by
  unfold dmaToggle
  simp only [rd_rDmacr]

theorem opReadInterruptStatus_eq : opReadInterruptStatus s =
    s.gap.finish .readInterruptStatus (.flags (s.misrWord.getLsbD 0) (s.misrWord.getLsbD 1)) := by
  unfold opReadInterruptStatus
  simp only [rd_rMisr]

/-! ### FIFO flow and phase -/

theorem opPushWord_eq (w : Word) : opPushWord w s =
    if dien s.dmacr = true then s.gap.finish .pushWord (.err .dmaConflict)
    else if s.gap.ifnf = false then s.gap.gap.finish .pushWord (.err .inputFull)
    else (s.gap.gap.wr (rowWDin w)).gap.finish .pushWord .ok := by
  unfold opPushWord
  simp only [rd_rDmacr, rd_rSr, srWord_bit1, Bool.not_eq_true']

theorem opPopWord_eq : opPopWord s =
    if doen s.dmacr = true then s.gap.finish .popWord (.err .dmaConflict)
    else if s.gap.ofne = false then s.gap.gap.finish .popWord (.err .outputEmpty)
    else (s.gap.gap.rd rowRDout).2.gap.finish .popWord (.okWord (s.gap.gap.rd rowRDout).1) := by
  unfold opPopWord
  simp only [rd_rDmacr, rd_rSr, srWord_bit2, Bool.not_eq_true']

theorem flowPredicate_eq (op : OpName) (bit : Nat) :
    flowPredicate op bit s = s.gap.finish op (.bool (s.srWord.getLsbD bit)) := by
  unfold flowPredicate
  simp only [rd_rSr]

/-- The CR value of setPhase: the phase field replaced (R432). -/
def phaseWord (p : Phase) (cr : Word) : Word := (cr &&& ~~~phMask) ||| (p.code.setWidth 32 <<< 16)

/-- What setPhase writes; `cr` is the CR it has read (R432). -/
def setPhaseWrites (p : Phase) (cr : Word) (s : State) : State :=
  (s.wr (rowWCr (phaseWord p cr))).withCtl fun c => { c with tracker := some p }

theorem opSetPhase_unconfigured (h : s.ctl.cfg = none) (p : Phase) :
    opSetPhase p s = s.finish .setPhase (.err .notConfigured) := by
  unfold opSetPhase
  rw [h]

theorem opSetPhase_eq (h : s.ctl.cfg = some cfg) (p : Phase) : opSetPhase p s =
    if cfg.mode.isAead = false then s.finish .setPhase .ok
    else if phaseAllowed s.ctl.tracker p = false then s.finish .setPhase (.err .phaseOrder)
    else if quiet s.cr s.gap.srWord s.gap.gap.dmacr = false then
      s.gap.gap.gap.finish .setPhase (.err .phaseWhileActive)
    else (setPhaseWrites p s.cr s.gap.gap.gap).gap.finish .setPhase .ok := by
  unfold opSetPhase setPhaseWrites phaseWord
  rw [h]
  simp only [rd_rCr, rd_rSr, rd_rDmacr, Bool.not_eq_true']

/-! ### Context -/

/-- save's state before its drain poll: the input side detached (R461). -/
def saveDetached (s : State) : State := s.gap.wr (rowWDmacr (s.dmacr &&& ~~~dienMask))

/-- What save's drain poll returns, and the state after it (R462). -/
def savePoll (s : State) : Bool × State := pollSr 0x15 0x01 (saveDetached s).params.drainBudget (saveDetached s)

theorem opSave_unconfigured (h : s.ctl.cfg = none) : opSave s = s.finish .save (.err .notConfigured) := by
  unfold opSave
  rw [h]

theorem opSave_eq (h : s.ctl.cfg = some cfg) : opSave s =
    if cfg.mode.isAead = true ∧ s.ctl.tracker = some .final then s.finish .save (.err .saveInFinal)
    else if (savePoll s).1 = true then saveCapture cfg s.dmacr (savePoll s).2
    else ((savePoll s).2.gap.wr (rowWDmacr s.dmacr)).gap.finish .save (.err .drainTimeout) := by
  unfold opSave savePoll saveDetached
  rw [h]
  simp only [rd_rDmacr, Bool.and_eq_true, beq_iff_eq]

/-- save's state once it has cleared CRYPEN; `dm` is the DMACR it has read first (R461 step 3). -/
def saveStopped (dm : Word) (s : State) : State :=
  let s1 := (s.gap.wr (rowWDmacr (dm &&& ~~~(dienMask ||| doenMask)))).gap
  s1.gap.wr (rowWCr (s1.cr &&& ~~~crypenMask))

/-- save's state once it has read the registers of the snapshot (R461 step 4). -/
def saveRead (cfg : EngineConfig) (s : State) : State := (readContext cfg.mode.isAead (s.rdAll ivReadRows).2).2

/-- The controller gives a snapshot to the host and closes the session (R461 step 5). -/
def State.handOver (snap : ContextSnapshot) (s : State) : State :=
  { s.withCtl ctlAfterSave with snaps := s.snaps ++ [snap] }

theorem saveCapture_eq (cfg : EngineConfig) (dm : Word) : ∃ snap, saveCapture cfg dm s =
    ((saveRead cfg (saveStopped dm s)).handOver snap).gap.finish .save (.okSnapshot snap) := by
  unfold saveCapture saveRead saveStopped State.handOver
  simp only [rd_rCr]
  exact ⟨_, rfl⟩

/-- restore after its register writes: the key preparation where the session needs one, and the enable (R464). -/
def restoreResume (cfg : EngineConfig) (snap : ContextSnapshot) (s : State) : State :=
  if needsKeyPrep cfg = true then
    if (restoreKeyPrep snap.cfgBits s).1 = true then restoreFinish cfg snap (restoreKeyPrep snap.cfgBits s).2
    else (restoreKeyPrep snap.cfgBits s).2.gap.finish .restore (.err .keyPrepTimeout)
  else restoreFinish cfg snap s

/-- restore's register writes up to its key preparation (R464 steps 1 to 3). -/
def restoreWrites (cfg : EngineConfig) (snap : ContextSnapshot) (key : List WordPair) (s : State) : State :=
  ((s.wr (rowWCr snap.cfgBits)).wrAll (restoreRows cfg snap key)).withCtl fun c => { c with prepared := false }

theorem restoreBody_eq (cfg : EngineConfig) (snap : ContextSnapshot) (key : List WordPair) : restoreBody cfg snap key s =
    if key.length ≠ keyPairs cfg then s.finish .restore (.err .keySizeMismatch)
    else if s.drained = true ∧ s.gap.dmacr &&& 3 = 0 then restoreResume cfg snap (restoreWrites cfg snap key s.gap.gap)
    else s.gap.gap.finish .restore (.err .engineActive) := by
  unfold restoreBody restoreResume restoreWrites
  have hmask : dienMask ||| doenMask = 3 := rfl
  simp only [rd_rSr, rd_rDmacr, drainedSr_srWord, hmask, Bool.not_eq_true', ← Bool.not_eq_true, Bool.and_eq_true, beq_iff_eq,
    ite_not]

end Sys2Proof.Machine
end

section
/-! Every controller operation returns one result, as its last step (R340): nothing else that it does makes such an entry
of the event history. -/

namespace Sys2Proof.Machine

variable {s t u : State}

/-- From `s` to `t` the history gains entries of which none is the result of an operation. -/
def AppendsNoResult (s t : State) : Prop := ∃ es, t.events = s.events ++ es ∧ es.all (!·.isResult) = true

theorem notifications_noResult (before after : State) :
    (notifications before after).all (!·.isResult) = true := by
  unfold notifications
  split <;> split <;> simp [Event.isResult]

namespace AppendsNoResult

theorem of_eq (h : t.events = s.events) : AppendsNoResult s t := ⟨[], by rw [h, List.append_nil], rfl⟩

theorem start (s : State) : AppendsNoResult s s := of_eq rfl

theorem trans (h : AppendsNoResult s t) (k : AppendsNoResult t u) : AppendsNoResult s u := by
  obtain ⟨es, he, hes⟩ := h
  obtain ⟨es', he', hes'⟩ := k
  exact ⟨es ++ es', by rw [he', he, List.append_assoc], by rw [List.all_append, hes, hes']; rfl⟩

theorem emit (h : t.events = s.events) {e : Event} (he : e.isResult = false) : AppendsNoResult s (t.emit e) :=
  ⟨[e], by rw [State.emit_events, h], by simp [he]⟩

theorem notifyCheck (before : State) (h : AppendsNoResult s t) : AppendsNoResult s (notifyCheck before t) :=
  h.trans ⟨_, notifyCheck_events before t, notifications_noResult before t⟩

/-! ### The agents -/

theorem engineStep (h : engineStep s = some t) : AppendsNoResult s t := by
  unfold Machine.engineStep at h
  split at h
  · obtain ⟨_, _, _, _, _, _, _, _, ⟨_, rfl⟩ | ⟨_, rfl⟩⟩ := startBlock_some s h
    · exact of_eq rfl
    · exact notifyCheck s (emit rfl rfl)
  · obtain ⟨_, _, _, _, _, rfl⟩ := completeData_some s h
    exact notifyCheck s (emit rfl rfl)
  · obtain ⟨_, rfl⟩ := completeKeyPrep_some s h
    exact notifyCheck s (emit rfl rfl)
  · obtain ⟨_, _, _, _, _, rfl⟩ := completeInit_some s h
    exact notifyCheck s (emit rfl rfl)
  · obtain ⟨_, _, _, _, _, _, rfl⟩ := completeTag_some s h
    exact notifyCheck s (emit rfl rfl)

/-- A DMA step's notifications stand before its own entry (log entry 11). -/
theorem of_dma {e : Event} (ht : t.events = s.events ++ notifications s u ++ [e]) (he : e.isResult = false) :
    AppendsNoResult s t :=
  ⟨notifications s u ++ [e], by rw [ht, List.append_assoc], by simp [List.all_append, notifications_noResult, he]⟩

theorem dmaInStep (h : dmaInStep s = some t) : AppendsNoResult s t := by
  obtain ⟨w, _, _, _, ht⟩ := dmaInStep_some s h
  rw [ht]
  exact of_dma (u := { s with inQ := s.inQ ++ [w] }) (e := .dmaIn w) rfl rfl

theorem dmaOutStep (h : dmaOutStep s = some t) : AppendsNoResult s t := by
  obtain ⟨w, _, _, ht⟩ := dmaOutStep_some s h
  rw [ht]
  exact of_dma (u := { s with outQ := t.outQ }) (e := .dmaOut w) rfl rfl

theorem agentStep (s : State) (a : Turn) : AppendsNoResult s (agentStep a s) :=
  agentStep_of_enabled (start s) (fun _ => engineStep) (fun _ => dmaInStep) (fun _ => dmaOutStep) a

/-! ### The transactions -/

theorem abortPass (s : State) : AppendsNoResult s (abortPass s) := by
  unfold Machine.abortPass
  split
  · exact of_eq rfl
  · exact emit rfl rfl
  · exact emit rfl rfl

theorem startZeroInputPass (old new : Word) (s : State) : AppendsNoResult s (startZeroInputPass old new s) := by
  unfold Machine.startZeroInputPass
  split_ifs
  · exact of_eq rfl
  · exact emit rfl rfl
  · exact emit rfl rfl
  · exact emit rfl rfl
  · exact of_eq rfl

theorem crApply (v : Word) (s : State) : AppendsNoResult s (crApply v s) := by
  have habort : AppendsNoResult s (crAborted s v) := by
    unfold crAborted
    split
    · exact abortPass s
    · exact of_eq rfl
  rw [crApply_eq]
  exact (habort.trans (of_eq rfl)).trans (startZeroInputPass _ _ _)

theorem row {row : Row} (hr : IsRow row) {x : Option Word} (h : row s = .done t x) : AppendsNoResult s t := by
  obtain ⟨v, rfl⟩ | hport := row_cases hr
  · unfold rowWCr at h
    split at h
    · cases h
    · cases h
      exact crApply v s
  · exact of_eq (by rw [(hport h).frame])

theorem transaction (s : State) {row : Row} (hr : IsRow row) (width : Nat) :
    AppendsNoResult s (transaction width row s).1 := by
  obtain ⟨k, e⟩ | ⟨t, v, hd, _, e⟩ := transaction_frame hr width s
  · rw [e]; exact of_eq rfl
  · rw [e]; exact notifyCheck s (AppendsNoResult.row hr hd)

/-! ### The parts of an operation, each after what stands before it -/

section
variable (h : AppendsNoResult s t)
include h

theorem gap : AppendsNoResult s t.gap :=
  gap_induct t (P := AppendsNoResult s) (fun _ _ hu => hu.trans (of_eq rfl)) (fun u a hu => hu.trans (agentStep u a)) h

theorem wr {row : Row} (hr : IsRow row) : AppendsNoResult s (t.wr row) := h.trans (transaction t hr 4)

theorem rd {row : Row} (hr : IsRow row) : AppendsNoResult s (t.rd row).2 := h.trans (transaction t hr 4)

theorem withCtl (f : Controller → Controller) : AppendsNoResult s (t.withCtl f) := h.trans (of_eq rfl)

theorem handOver (snap : ContextSnapshot) : AppendsNoResult s (t.handOver snap) := h.trans (of_eq rfl)

end

theorem wrAll {rows : List Row} (hr : ∀ r ∈ rows, IsRow r) (h : AppendsNoResult s t) :
    AppendsNoResult s (t.wrAll rows) := by
  induction rows generalizing t with
  | nil => exact h
  | cons r rows ih =>
    obtain ⟨hr, hrows⟩ := List.forall_mem_cons.1 hr
    exact ih hrows (h.gap.wr hr)

theorem rdAll {rows : List Row} (hr : ∀ r ∈ rows, IsRow r) (h : AppendsNoResult s t) :
    AppendsNoResult s (t.rdAll rows).2 := by
  induction rows generalizing t with
  | nil => exact h
  | cons r rows ih =>
    obtain ⟨hr, hrows⟩ := List.forall_mem_cons.1 hr
    exact ih hrows (h.gap.rd hr)

theorem pollSr (m v : Word) (n : Nat) (h : AppendsNoResult s t) : AppendsNoResult s (pollSr m v n t).2 := by
  induction n generalizing t with
  | zero => exact h
  | succ n ih =>
    unfold Machine.pollSr
    dsimp only
    split
    · exact h.gap.rd .rSr
    · exact ih (h.gap.rd .rSr)

theorem readContext (aead : Bool) (h : AppendsNoResult s t) : AppendsNoResult s (readContext aead t).2 := by
  have hcsw := cswReadRows_isRow
  have hcsf := csfReadRows_isRow
  unfold Machine.readContext
  generalize cswReadRows = csw at hcsw
  generalize csfReadRows = csf at hcsf
  split
  · exact rdAll hcsf (rdAll hcsw h)
  · exact h

end AppendsNoResult

/-! ### The operations -/

/-- From `s` the operation returns with the one result it appends in `s'`. -/
def Reports (op : OpName) (s s' : State) : Prop := ∃ t r, s' = t.finish op r ∧ AppendsNoResult s t

theorem AppendsNoResult.finish (h : AppendsNoResult s t) (op : OpName) (r : OpResult) : Reports op s (t.finish op r) :=
  ⟨t, r, rfl, h⟩

namespace Reports
open AppendsNoResult (start)

theorem configure (cfg : EngineConfig) (s : State) : Reports .configure s (opConfigure cfg s) := by
  have hread := (start s).gap.gap.gap
  rw [opConfigure_eq]
  split_ifs
  · exact hread.finish _ _
  · exact hread.finish _ _
  · exact ((hread.wr (.wCr _)).withCtl _).gap.finish _ _

theorem loadKey (key : List WordPair) (s : State) : Reports .loadKey s (opLoadKey key s) := by
  cases hcfg : s.ctl.cfg with
  | none => rw [opLoadKey_unconfigured s hcfg]; exact (start s).finish _ _
  | some cfg =>
    rw [opLoadKey_eq s hcfg]
    split_ifs
    · exact (start s).finish _ _
    · exact (start s).gap.finish _ _
    · exact (start s).gap.gap.gap.finish _ _
    · exact (((start s).gap.gap.wrAll (keyRows_isRow _)).withCtl _).gap.finish _ _

theorem loadIV (iv : IVMaterial) (s : State) : Reports .loadIV s (opLoadIV iv s) := by
  cases hcfg : s.ctl.cfg with
  | none => rw [opLoadIV_unconfigured s hcfg]; exact (start s).finish _ _
  | some cfg =>
    rw [opLoadIV_eq s hcfg]
    split_ifs
    · exact (start s).finish _ _
    · exact (start s).gap.finish _ _
    · exact (start s).gap.gap.gap.finish _ _
    · exact ((start s).gap.gap.wrAll (ivRows_isRow _)).gap.finish _ _

theorem flushFIFOs (s : State) : Reports .flushFIFOs s (opFlushFIFOs s) := by
  rw [opFlushFIFOs_eq]
  split_ifs
  · exact (start s).gap.finish _ _
  · exact (start s).gap.gap.finish _ _
  · exact ((start s).gap.gap.wr (.wCr _)).gap.finish _ _

theorem enable (s : State) : Reports .enable s (opEnable s) := by
  cases hcfg : s.ctl.cfg with
  | none => rw [opEnable_unconfigured s hcfg]; exact (start s).finish _ _
  | some cfg =>
    rw [opEnable_eq s hcfg]
    split_ifs
    · exact (start s).finish _ _
    · exact (((start s).gap.wr (.wCr _)).withCtl _).gap.finish _ _

theorem disable (s : State) : Reports .disable s (opDisable s) := by
  rw [opDisable_eq]
  exact (((start s).gap.wr (.wCr _)).withCtl _).gap.finish _ _

theorem isBusy (s : State) : Reports .isBusy s (opIsBusy s) := by
  rw [opIsBusy_eq]
  exact ((start s).withCtl _).gap.finish _ _

theorem dmaToggle (op : OpName) (m : Word) (b : Bool) (s : State) : Reports op s (dmaToggle op m b s) := by
  rw [dmaToggle_eq]
  exact ((start s).gap.wr (.wDmacr _)).gap.finish _ _

theorem setInterruptMask (inp out : Bool) (s : State) : Reports .setInterruptMask s (opSetInterruptMask inp out s) :=
  ((start s).wr (.wImscr _)).gap.finish _ _

theorem readInterruptStatus (s : State) : Reports .readInterruptStatus s (opReadInterruptStatus s) := by
  rw [opReadInterruptStatus_eq]
  exact (start s).gap.finish _ _

theorem pushWord (w : Word) (s : State) : Reports .pushWord s (opPushWord w s) := by
  rw [opPushWord_eq]
  split_ifs
  · exact (start s).gap.finish _ _
  · exact (start s).gap.gap.finish _ _
  · exact ((start s).gap.gap.wr (.wDin _)).gap.finish _ _

theorem popWord (s : State) : Reports .popWord s (opPopWord s) := by
  rw [opPopWord_eq]
  split_ifs
  · exact (start s).gap.finish _ _
  · exact (start s).gap.gap.finish _ _
  · exact ((start s).gap.gap.rd .rDout).gap.finish _ _

theorem flowPredicate (op : OpName) (bit : Nat) (s : State) : Reports op s (flowPredicate op bit s) := by
  rw [flowPredicate_eq]
  exact (start s).gap.finish _ _

theorem setPhase (p : Phase) (s : State) : Reports .setPhase s (opSetPhase p s) := by
  cases hcfg : s.ctl.cfg with
  | none => rw [opSetPhase_unconfigured s hcfg]; exact (start s).finish _ _
  | some cfg =>
    rw [opSetPhase_eq s hcfg]
    split_ifs
    · exact (start s).finish _ _
    · exact (start s).finish _ _
    · exact (start s).gap.gap.gap.finish _ _
    · exact (((start s).gap.gap.gap.wr (.wCr _)).withCtl _).gap.finish _ _

theorem saveCapture (h : AppendsNoResult s t) (cfg : EngineConfig) (dm : Word) :
    Reports .save s (saveCapture cfg dm t) := by
  have hstopped : AppendsNoResult s (saveStopped dm t) := (h.gap.wr (.wDmacr _)).gap.gap.wr (.wCr _)
  have hread : AppendsNoResult s (saveRead cfg (saveStopped dm t)) := (hstopped.rdAll ivReadRows_isRow).readContext _
  obtain ⟨snap, e⟩ := saveCapture_eq t cfg dm
  rw [e]
  exact (hread.handOver snap).gap.finish _ _

theorem save (s : State) : Reports .save s (opSave s) := by
  cases hcfg : s.ctl.cfg with
  | none => rw [opSave_unconfigured s hcfg]; exact (start s).finish _ _
  | some cfg =>
    have hpoll : AppendsNoResult s (savePoll s).2 := ((start s).gap.wr (.wDmacr _)).pollSr _ _ _
    rw [opSave_eq s hcfg]
    split_ifs
    · exact (start s).finish _ _
    · exact saveCapture hpoll _ _
    · exact (hpoll.gap.wr (.wDmacr _)).gap.finish _ _

theorem restoreKeyPrep (h : AppendsNoResult s t) (bits : Word) : AppendsNoResult s (restoreKeyPrep bits t).2 := by
  have hpoll := fun n => (h.gap.wr (.wCr (keyPrepBits bits ||| crypenMask))).pollSr 0x10 0x00 n
  unfold Machine.restoreKeyPrep
  dsimp only
  split
  · exact ((hpoll _).gap.wr (.wCr _)).withCtl _
  · exact (((hpoll _).gap.wr (.wCr _)).gap.wr (.wCr _)).withCtl _

theorem restoreFinish (h : AppendsNoResult s t) (cfg : EngineConfig) (snap : ContextSnapshot) :
    Reports .restore s (restoreFinish cfg snap t) :=
  ((h.gap.wr (.wCr _)).withCtl _).gap.finish _ _

theorem restoreResume (h : AppendsNoResult s t) (cfg : EngineConfig) (snap : ContextSnapshot) :
    Reports .restore s (restoreResume cfg snap t) := by
  unfold Machine.restoreResume
  split_ifs
  · exact restoreFinish (restoreKeyPrep h _) _ _
  · exact (restoreKeyPrep h _).gap.finish _ _
  · exact restoreFinish h _ _

theorem restoreBody (cfg : EngineConfig) (snap : ContextSnapshot) (key : List WordPair) (s : State) :
    Reports .restore s (restoreBody cfg snap key s) := by
  have hwrites : AppendsNoResult s (restoreWrites cfg snap key s.gap.gap) :=
    (((start s).gap.gap.wr (.wCr _)).wrAll (restoreRows_isRow cfg snap key)).withCtl _
  rw [restoreBody_eq]
  split_ifs
  · exact (start s).finish _ _
  · exact restoreResume hwrites cfg snap
  · exact (start s).gap.gap.finish _ _

theorem restore (arg : Option ContextSnapshot) (key : List WordPair) (s : State) :
    Reports .restore s (opRestore arg key s) := by
  obtain ⟨_, e⟩ | ⟨snap, cfg, _, _, _, _, e⟩ := opRestore_cases s arg key
  · rw [e]; exact (start s).finish _ _
  · rw [e]; exact restoreBody cfg snap key s

end Reports

theorem exec_reports {i : Instr} {op : OpName} (h : i.opName = some op) (s : State) :
    ∃ s', exec i s = .next s' ∧ Reports op s s' := by
  cases i
  case configure cfg => cases h; exact ⟨_, rfl, .configure cfg s⟩
  case loadKey key => cases h; exact ⟨_, rfl, .loadKey key s⟩
  case loadIV iv => cases h; exact ⟨_, rfl, .loadIV iv s⟩
  case flushFIFOs => cases h; exact ⟨_, rfl, .flushFIFOs s⟩
  case enable => cases h; exact ⟨_, rfl, .enable s⟩
  case disable => cases h; exact ⟨_, rfl, .disable s⟩
  case isBusy => cases h; exact ⟨_, rfl, .isBusy s⟩
  case pushWord w => cases h; exact ⟨_, rfl, .pushWord w s⟩
  case popWord => cases h; exact ⟨_, rfl, .popWord s⟩
  case inputNotFull | inputEmpty | outputNotEmpty | outputFull => cases h; exact ⟨_, rfl, .flowPredicate _ _ s⟩
  case setPhase p => cases h; exact ⟨_, rfl, .setPhase p s⟩
  case save => cases h; exact ⟨_, rfl, .save s⟩
  case restore arg key => cases h; exact ⟨_, rfl, .restore arg key s⟩
  case setInputDMA b => cases h; exact ⟨_, rfl, .dmaToggle _ _ b s⟩
  case setOutputDMA b => cases h; exact ⟨_, rfl, .dmaToggle _ _ b s⟩
  case setInterruptMask inp out => cases h; exact ⟨_, rfl, .setInterruptMask inp out s⟩
  case readInterruptStatus => cases h; exact ⟨_, rfl, .readInterruptStatus s⟩
  all_goals cases h

/-- Settles O42: every path of every operation ends in its return, and no part before it makes such an entry. -/
theorem everyOperationReturnsOneResult : Obligations.EveryOperationReturnsOneResult := by
  unfold Obligations.EveryOperationReturnsOneResult
  intro i s op _ hop
  obtain ⟨_, hexec, t, r, rfl, hes⟩ := exec_reports hop s
  exact ⟨t, r, hexec, hes⟩

end Sys2Proof.Machine
end

section
/-! The checks of the operations: those that need no transaction (R431, R460, R466, R506), and those over the values read,
where no other agent has a turn. -/

namespace Sys2Proof.Machine

variable {s : State} {cfg : EngineConfig}

/-- Operations that end in the same state answer the same. -/
theorem next_congr {t u : State} (h : t = u) : (Host.Outcome.next t : Host.Outcome State Fault Refusal) = .next u :=
  congrArg _ h

/-! ### Checks without a transaction -/

theorem Mode.isAead_of {m : Mode} (h : m = .aesGcm ∨ m = .aesCcm) : m.isAead = true := (Mode.isAead_iff m).2 h

theorem Mode.not_isAead_of {m : Mode} (hgcm : m ≠ .aesGcm) (hccm : m ≠ .aesCcm) : m.isAead = false := by
  rw [← Bool.not_eq_true, Mode.isAead_iff]
  exact not_or.2 ⟨hgcm, hccm⟩

/-- R431: the five moves from one phase to the next. -/
theorem phaseAllowed_iff (prev : Option Phase) (p : Phase) : phaseAllowed prev p = true ↔
    (prev, p) ∈ [(none, Phase.init), (some .init, .header), (some .header, .payload), (some .payload, .final),
      (some .final, .init)] := by
  cases prev with
  | none => cases p <;> decide
  | some q => cases q <;> cases p <;> decide

/-- R460: a snapshot is valid where its id is outstanding and the host holds it. -/
theorem validConfig_of_valid {snap : ContextSnapshot} (hid : snap.id ∈ s.ctl.outstanding) (hheld : snap ∈ s.snaps) :
    validConfig snap s = decodeConfig snap.cfgBits := if_pos ⟨hid, hheld⟩

theorem opRestore_invalid {arg : Option ContextSnapshot} (key : List WordPair)
    (h : ∀ snap, arg = some snap → snap.id ∉ s.ctl.outstanding ∨ snap ∉ s.snaps) :
    opRestore arg key s = s.finish .restore (.err .snapshotConsumed) := by
  obtain ⟨_, e⟩ | ⟨snap, _, harg, hid, hheld, _⟩ := opRestore_cases s arg key
  · exact e
  · exact absurd ⟨hid, hheld⟩ (not_and_or.2 (h snap harg))

theorem opRestore_valid {snap : ContextSnapshot} (key : List WordPair) (hid : snap.id ∈ s.ctl.outstanding)
    (hheld : snap ∈ s.snaps) (hdec : decodeConfig snap.cfgBits = some cfg) :
    opRestore (some snap) key s = restoreBody cfg snap key s := by
  unfold opRestore
  dsimp only
  rw [validConfig_of_valid hid hheld, hdec]

/-- Settles O44: each check is the first branch of its operation that its premise leaves open. -/
theorem checksWithoutTransactions : Obligations.ChecksWithoutTransactions := by
  unfold Obligations.ChecksWithoutTransactions
  refine ⟨fun s h => ?unconfigured, fun s cfg h => ⟨fun key hlen => ?length, fun p hgcm hccm => ?inert, fun haead => ?aead⟩,
    fun s arg key h => next_congr (opRestore_invalid key h), fun s snap key cfg hid hheld hdec hlen => ?restoreLength,
    fun args => ⟨_, _, rfl⟩⟩
  case unconfigured =>
    exact ⟨fun key => next_congr (opLoadKey_unconfigured s h key), fun iv => next_congr (opLoadIV_unconfigured s h iv),
      next_congr (opEnable_unconfigured s h), fun p => next_congr (opSetPhase_unconfigured s h p),
      next_congr (opSave_unconfigured s h)⟩
  case length => exact next_congr ((opLoadKey_eq s h key).trans (if_pos hlen))
  case inert => exact next_congr ((opSetPhase_eq s h p).trans (if_pos (Mode.not_isAead_of hgcm hccm)))
  case aead =>
    have hmode := Mode.isAead_of haead
    refine ⟨fun ht => next_congr ((opEnable_eq s h).trans (if_pos ⟨hmode, ht⟩)),
      fun ht => next_congr ((opSave_eq s h).trans (if_pos ⟨hmode, ht⟩)), fun p hp => next_congr ?_⟩
    have hnot : phaseAllowed s.ctl.tracker p = false := Bool.eq_false_iff.2 (mt (phaseAllowed_iff _ _).1 hp)
    rw [opSetPhase_eq s h, hmode, hnot]
    rfl
  case restoreLength =>
    exact next_congr ((opRestore_valid key hid hheld hdec).trans ((restoreBody_eq s cfg snap key).trans (if_pos hlen)))

/-! ### Checks over values read -/

theorem ifnf_eq_false_of_full (h : s.params.inDepth ≤ s.inQ.length) : s.ifnf = false :=
  decide_eq_false (Nat.not_lt.2 h)

theorem ofne_eq_false_of_empty (h : s.outQ = []) : s.ofne = false := by
  unfold State.ofne
  rw [h]
  rfl

/-- Settles O45: with no turn in the schedule every gap is the state itself, and each equation is at its check. -/
theorem checksOverValuesRead : Obligations.ChecksOverValuesRead := by
  unfold Obligations.ChecksOverValuesRead
  intro s hsched
  have hgap : s.gap = s := gap_unscheduled hsched
  refine ⟨fun cfg hq => next_congr ?configureActive, fun cfg hq hprep hnot => next_congr ?configurePreparation,
    fun cfg key h hlen => ⟨fun hb => next_congr ?loadKeyBusy, fun hb hq => next_congr ?loadKeyActive⟩,
    fun cfg iv h hregs => ⟨fun hb => next_congr ?loadIvBusy, fun hb hq => next_congr ?loadIvActive⟩,
    fun hb => next_congr ?flushBusy, fun hb hen => next_congr ?flushActive, fun w hd => next_congr ?pushDma,
    fun w hd hfull => next_congr ?pushFull, fun hd => next_congr ?popDma, fun hd hempty => next_congr ?popEmpty,
    fun cfg p h haead hallowed hq => next_congr ?setPhaseActive,
    fun snap key cfg hid hheld hdec hlen hnot => next_congr ?restoreActive⟩
  case configureActive =>
    simp only [opConfigure_eq, hgap]
    exact if_pos hq
  case configurePreparation =>
    simp only [opConfigure_eq, hgap]
    exact (if_neg (Bool.not_eq_false _ ▸ hq)).trans (if_pos ⟨hprep, hnot⟩)
  case loadKeyBusy =>
    simp only [opLoadKey_eq s h, hgap]
    exact (if_neg (not_not.2 hlen)).trans (if_pos hb)
  case loadKeyActive =>
    simp only [opLoadKey_eq s h, hgap, hb]
    exact (if_neg (not_not.2 hlen)).trans (if_pos hq)
  case loadIvBusy =>
    simp only [opLoadIV_eq s h, hgap]
    exact (if_neg hregs).trans (if_pos hb)
  case loadIvActive =>
    simp only [opLoadIV_eq s h, hgap, hb]
    exact (if_neg hregs).trans (if_pos hq)
  case flushBusy =>
    simp only [opFlushFIFOs_eq, hgap]
    exact if_pos hb
  case flushActive =>
    simp only [opFlushFIFOs_eq, hgap, hb]
    exact if_pos hen
  case pushDma =>
    simp only [opPushWord_eq, hgap]
    exact if_pos hd
  case pushFull =>
    simp only [opPushWord_eq, hgap]
    exact (if_neg (Bool.not_eq_true _ ▸ hd)).trans (if_pos (ifnf_eq_false_of_full hfull))
  case popDma =>
    simp only [opPopWord_eq, hgap]
    exact if_pos hd
  case popEmpty =>
    simp only [opPopWord_eq, hgap]
    exact (if_neg (Bool.not_eq_true _ ▸ hd)).trans (if_pos (ofne_eq_false_of_empty hempty))
  case setPhaseActive =>
    simp only [opSetPhase_eq s h, hgap, Mode.isAead_of haead, hallowed]
    exact if_pos hq
  case restoreActive =>
    simp only [opRestore_valid key hid hheld hdec, restoreBody_eq, hgap]
    exact (if_neg (not_not.2 hlen)).trans (if_neg hnot)

end Sys2Proof.Machine
end

section
/-! The CR words that the controller writes: which fields each keeps, and that each is one a CR can hold (R32, R39). -/

namespace Sys2Proof.Machine

variable {a b c : Word}

/-! ### Words with the same configuration -/

theorem crMode_congr (h : a &&& cfgMask = b &&& cfgMask) : crMode a = crMode b := by
  have hm := modeField_and (m := cfgMask) rfl rfl
  unfold crMode
  rw [← hm a, h, hm b]

theorem ksField_congr (h : a &&& cfgMask = b &&& cfgMask) : ksField a = ksField b := by
  have hk : ∀ w : Word, ksField (w &&& cfgMask) = ksField w := fun w => extractLsb'_and_of_allOnes rfl
  rw [← hk a, h, hk b]

theorem reservedConfig_congr (h : a &&& cfgMask = b &&& cfgMask) : reservedConfig a = reservedConfig b := by
  unfold reservedConfig
  rw [crMode_congr h, ksField_congr h]

/-- Setting bits outside a mask does not change what the mask shows. -/
theorem or_and_eq {m k : Word} (hmk : m &&& k = 0) (c : Word) : (c ||| m) &&& k = c &&& k := by
  rw [BitVec.and_or_distrib_right, hmk]
  exact BitVec.or_zero

/-- Nor does clearing them. -/
theorem and_not_and_eq {m k : Word} (hmk : ~~~m &&& k = k) (c : Word) : (c &&& ~~~m) &&& k = c &&& k := by
  rw [BitVec.and_assoc, hmk]

/-- Clearing bits leaves a word without the bits it was without. -/
theorem and_and_not_eq_zero {k : Word} (h : c &&& k = 0) (m : Word) : (c &&& m) &&& k = 0 := by
  rw [show (c &&& m) &&& k = (c &&& k) &&& m by ac_rfl, h]
  exact BitVec.zero_and

/-- A CR value holds no FFLUSH (R36). -/
theorem getLsbD_flush_of_crLegal (h : crLegal c) : c.getLsbD 14 = false := by
  rw [← crStored_of_crLegal h, crStored_eq, BitVec.getLsbD_and]
  exact Bool.and_false _

/-! ### CRYPEN set and cleared (R346, R347) -/

theorem sameConfig_setCrypen (c : Word) : SameConfig c (c ||| crypenMask) :=
  ⟨(or_and_eq rfl c).symm, (or_and_eq rfl c).symm⟩

theorem sameConfig_clearCrypen (c : Word) : SameConfig c (c &&& ~~~crypenMask) :=
  ⟨(and_not_and_eq rfl c).symm, (and_not_and_eq rfl c).symm⟩

@[simp] theorem crypen_setCrypen (c : Word) : crypen (c ||| crypenMask) = true := by
  unfold crypen
  rw [BitVec.getLsbD_or]
  exact Bool.or_true _

@[simp] theorem crypen_clearCrypen (c : Word) : crypen (c &&& ~~~crypenMask) = false := by
  unfold crypen
  rw [BitVec.getLsbD_and]
  exact Bool.and_false _

theorem crLegal_setCrypen (h : crLegal c) : crLegal (c ||| crypenMask) :=
  ⟨(or_and_eq rfl c).trans h.1, (reservedConfig_congr (sameConfig_setCrypen c).cfg).symm.trans h.2⟩

theorem crLegal_clearCrypen (h : crLegal c) : crLegal (c &&& ~~~crypenMask) :=
  ⟨and_and_not_eq_zero h.1 _, (reservedConfig_congr (sameConfig_clearCrypen c).cfg).symm.trans h.2⟩

/-- CRYPEN set where it is set already. -/
theorem setCrypen_of_crypen (h : crypen c = true) : c ||| crypenMask = c := by
  refine BitVec.eq_of_getLsbD_eq fun n hn => ?_
  have hbit : crypenMask.getLsbD n = decide (n = 15) := by
    revert n
    decide
  rw [BitVec.getLsbD_or, hbit]
  by_cases h15 : n = 15
  · subst h15
    rw [show c.getLsbD 15 = true from h]
    rfl
  · rw [decide_eq_false h15, Bool.or_false]

/-! ### FFLUSH (R345) -/

/-- FFLUSH is not stored (R36). -/
theorem crStored_setFlush (h : crLegal c) : crStored (c ||| fflushMask) = c := by
  have hstored := crStored_of_crLegal h
  rw [crStored_eq] at hstored ⊢
  exact (or_and_eq rfl c).trans hstored

theorem getLsbD_setFlush (c : Word) : (c ||| fflushMask).getLsbD 14 = true := by
  rw [BitVec.getLsbD_or]
  exact Bool.or_true _

/-! ### The phase replaced (R432) -/

theorem phaseWord_and {k : Word} (hk : ~~~phMask &&& k = k) (p : Phase) (c : Word) : phaseWord p c &&& k = c &&& k := by
  have hcode : (p.code.setWidth 32 <<< 16) &&& ~~~phMask = 0 := by cases p <;> rfl
  have hcode' : (p.code.setWidth 32 <<< 16) &&& k = 0 := by
    rw [← hk, ← BitVec.and_assoc, hcode]
    exact BitVec.zero_and
  rw [phaseWord, or_and_eq hcode', and_not_and_eq hk]

theorem crLegal_phaseWord (h : crLegal c) (p : Phase) : crLegal (phaseWord p c) :=
  ⟨(phaseWord_and rfl p c).trans h.1, (reservedConfig_congr (phaseWord_and rfl p c)).trans h.2⟩

theorem crypen_phaseWord (p : Phase) (c : Word) : crypen (phaseWord p c) = crypen c := by
  have hbit : ∀ w : Word, crypen (w &&& crypenMask) = crypen w := fun w => by
    unfold crypen
    rw [BitVec.getLsbD_and]
    exact Bool.and_true _
  rw [← hbit, phaseWord_and rfl, hbit]

/-! ### The encoding of a configuration (R342) -/

theorem encodeConfig_and_not {cfg : EngineConfig} (h : cfg.wf = true) : encodeConfig cfg &&& ~~~cfgMask = 0 :=
  (configurationsEncodeAndDecode.1 cfg h).2.2

theorem crMode_encodeConfig (cfg : EngineConfig) : crMode (encodeConfig cfg) = some cfg.mode := by
  rw [crMode, modeField_encodeConfig, Mode.ofCode_code]

theorem crLegal_encodeConfig {cfg : EngineConfig} (h : cfg.wf = true) : crLegal (encodeConfig cfg) := by
  refine ⟨?_, (reservedConfig_eq_false_iff _).2 ⟨cfg, decodeConfig_encodeConfig h⟩⟩
  rw [show ~~~(cfgMask ||| phMask ||| crypenMask) = ~~~cfgMask &&& ~~~(phMask ||| crypenMask) from rfl, ← BitVec.and_assoc,
    encodeConfig_and_not h]
  exact BitVec.zero_and

/-- A word inside CFG_MASK has CRYPEN 0 and phase Init. -/
theorem crypen_encodeConfig {cfg : EngineConfig} (h : cfg.wf = true) : crypen (encodeConfig cfg) = false := by
  have hmask : encodeConfig cfg &&& cfgMask = encodeConfig cfg := by
    have hsplit := and_add_and (encodeConfig cfg) (m := cfgMask) (k := ~~~cfgMask) (BitVec.and_not_self _)
    rw [encodeConfig_and_not h, show cfgMask ||| ~~~cfgMask = BitVec.allOnes 32 from rfl, BitVec.and_allOnes] at hsplit
    exact (BitVec.add_zero _).symm.trans hsplit
  unfold crypen
  rw [← hmask, BitVec.getLsbD_and]
  exact Bool.and_false _

theorem encodeConfig_and_phase {cfg : EngineConfig} (h : cfg.wf = true) : encodeConfig cfg &&& phMask = 0 := by
  rw [show phMask = ~~~cfgMask &&& phMask from rfl, ← BitVec.and_assoc, encodeConfig_and_not h]
  exact BitVec.zero_and

/-! ### What a configuration word decodes to -/

theorem crMode_of_decodeConfig {cfg : EngineConfig} (h : decodeConfig c = some cfg) : crMode c = some cfg.mode := by
  rw [crMode, ← (codes_of_decodeConfig h).1, Mode.ofCode_code]

end Sys2Proof.Machine
end

section
/-! The register writes of the controller: when a CR write passes every check, what it stores, and what it leaves alone
(R201, R340). -/

namespace Sys2Proof.Machine

variable {s t u : State} {v : Word}

/-! ### A write and its row -/

theorem wr_of_done {row : Row} (h : row s = .done t none) : s.wr row = notifyCheck s t := by
  unfold State.wr
  rw [transaction_done s h]

theorem BlockInv.wr (h : BlockInv s) {row : Row} (hr : IsRow row) : BlockInv (s.wr row) := h.transaction hr 4

theorem RowFrame.notifyCheck (h : RowFrame s t) (before : State) : RowFrame s (notifyCheck before t) := by
  refine h.trans ?_
  rw [notifyCheck_eq]
  exact ⟨rfl, rfl, ⟨_, rfl⟩, rfl, rfl, rfl, rfl, rfl, rfl, rfl, rfl⟩

/-! ### The legal CR writes -/

/-- A CR value of the configuration and phase that CR holds passes every check, whatever the engine does. -/
theorem crWriteLegal_same (hv : crLegal v) (hsame : SameConfig s.cr v) : crWriteLegal v s := by
  have hflush := getLsbD_flush_of_crLegal hv
  refine ⟨?_, fun _ => ⟨hsame.cfg, hsame.phase⟩, fun hf => absurd (hflush.symm.trans hf.1) nofun⟩
  rw [← crStored_eq, crStored_of_crLegal hv, reservedCr_iff, hv.2]
  exact nofun

/-- In a quiet block every value without a reserved configuration passes (R341). -/
theorem BlockInv.crWriteLegal_quiet (h : BlockInv s) (hq : s.quietNow = true) (hv : reservedConfig (crStored v) = false) :
    crWriteLegal v s := by
  refine ⟨?_, fun ha => absurd ha (not_activeNow_of_quiet hq), fun hf => ?_⟩
  · rw [← crStored_eq, reservedCr_iff, hv]
    exact nofun
  · exact absurd ((h.idle_of_quiet hq).symm.trans hf.2) nofun

theorem BlockInv.crWriteLegal_of_quiet (h : BlockInv s) (hq : s.quietNow = true) (hv : crLegal v) : crWriteLegal v s :=
  h.crWriteLegal_quiet hq (by rw [crStored_of_crLegal hv]; exact hv.2)

/-! ### What a legal CR write does -/

/-- Only a key preparation in flight can be aborted with the key unprepared, and during one it is so already (R277). -/
theorem crAborted_ready (h : BlockInv s) (hready : s.decKeyReady = true) : (crAborted s v).decKeyReady = true := by
  unfold crAborted abortPass
  split
  · split
    · exact hready
    · next hp => exact absurd (((passLegal_keyPrep hp).1 h.pass_legal).2.2.symm.trans hready) nofun
    · exact hready
  · exact hready

theorem startZeroInputPass_ready {old new : Word}
    (hkp : ¬(keyPrepCondition new = true ∧ keyPrepCondition old = false)) (hready : s.decKeyReady = true) :
    (startZeroInputPass old new s).decKeyReady = true := by
  cases hb : s.busy with
  | true => rw [startZeroInputPass_busy s old new hb]; exact hready
  | false =>
    obtain ⟨hedge, _⟩ | ⟨_, _, e⟩ | ⟨_, _, _, e⟩ | ⟨_, _, _, e⟩ := startZeroInputPass_cases s old new hb
    · exact absurd hedge hkp
    all_goals rw [e]; exact hready

section
variable (hv : crWriteLegal v s)
include hv

/-- The host's CR write and the controller's are the same transaction. -/
theorem exec_wCr_eq_wr : exec (.wCr 4 v) s = .next (s.wr (rowWCr v)) := by
  rw [exec_wCr_legal s hv, wr_wCr_legal s hv]

theorem wr_wCr_frame : RowFrame s (s.wr (rowWCr v)) := by
  rw [wr_wCr_legal s hv]
  exact (crApply_frame s v).notifyCheck s

@[simp] theorem wr_wCr_cr : (s.wr (rowWCr v)).cr = crStored v := by
  rw [wr_wCr_legal s hv, notifyCheck_cr, crApply_changes, crStored_eq]

theorem wr_wCr_dmacr : (s.wr (rowWCr v)).dmacr = s.dmacr := by
  rw [wr_wCr_legal s hv, notifyCheck_dmacr, crApply_changes]

/-- A CR write that does not set CRYPEN, to an idle engine and without a flush, stores and clears, and that is all. -/
theorem wr_wCr_off (hb : s.busy = false) (hoff : v.getLsbD 15 = false) (hflush : v.getLsbD 14 = false) :
    s.wr (rowWCr v) = { s with
      cr := crStored v
      decKeyReady := if ksField s.cr = ksField v then s.decKeyReady else false
      finalDone := if phaseField s.cr = phaseField (crStored v) then s.finalDone else false } := by
  have hcrypen : crypen (crStored v) = false := (crypen_crStored v).trans hoff
  rw [wr_wCr_legal s hv, crApply_idle s v hb, startZeroInputPass_disabled _ _ _ hcrypen, hflush, ksField_crStored]
  exact notifyCheck_eq_self rfl rfl rfl rfl

/-- A prepared key outlives a CR write that keeps KEYSIZE and starts no key preparation (R62, R277). -/
theorem wr_wCr_ready (h : BlockInv s) (hks : ksField s.cr = ksField v)
    (hkp : ¬(keyPrepCondition (crStored v) = true ∧ keyPrepCondition s.cr = false)) (hready : s.decKeyReady = true) :
    (s.wr (rowWCr v)).decKeyReady = true := by
  rw [wr_wCr_legal s hv, notifyCheck_decKeyReady, crApply_eq]
  exact startZeroInputPass_ready hkp ((if_pos hks).trans (crAborted_ready h hready))

end

/-! ### What DMA moves do not see -/

/-- DMA moves alike where CR, the register files, the hidden bits and the controller differ: it reads none of them
(R280, R281). -/
theorem DmaMoves.of_update {s' t' : State} (h : DmaMoves s t)
    (hs : s' = { s with
      cr := s'.cr, key := s'.key, iv := s'.iv, csw := s'.csw, csf := s'.csf, decKeyReady := s'.decKeyReady
      finalDone := s'.finalDone, ctl := s'.ctl })
    (ht : t' = { t with
      cr := s'.cr, key := s'.key, iv := s'.iv, csw := s'.csw, csf := s'.csf, decKeyReady := s'.decKeyReady
      finalDone := s'.finalDone, ctl := s'.ctl }) : DmaMoves s' t' := by
  generalize s'.cr = cr, s'.key = key, s'.iv = iv, s'.csw = csw, s'.csf = csf, s'.decKeyReady = ready,
    s'.finalDone = done, s'.ctl = ctl at hs ht
  subst hs ht
  obtain ⟨hrest, hin, hout, hin', hout', hes, hdet⟩ := h
  refine ⟨?_, hin, hout, hin', hout', hes, fun hi ho => ?_⟩
  · rw [hrest]
  · rw [hdet hi ho]

end Sys2Proof.Machine
end

section
/-! The operations from a quiet block: what each writes, with nothing but DMA besides (R342 to R345, R355, R356). -/

namespace Sys2Proof.Machine

variable {s t u : State} {cfg : EngineConfig}

/-! ### Gaps of a quiet block -/

theorem BlockInv.gap_dma (h : BlockInv s) (hq : s.quietNow = true) : DmaMoves s s.gap := h.gap_moves.quiet hq

/-- Quiet over the values that configure and setPhase read is Quiet where SR was read: no agent writes CR or DMACR. -/
theorem BlockInv.quiet_crFirst (h : BlockInv s) : quiet s.cr s.gap.srWord s.gap.gap.dmacr = s.gap.quietNow := by
  have hgap := h.gap_moves
  rw [State.quietNow, hgap.cr_eq, (hgap.gap h).dmacr_eq, hgap.dmacr_eq]

/-- Quiet over the values that loadKey and loadIV read is Quiet where SR was read. -/
theorem BlockInv.quiet_srFirst (h : BlockInv s) : quiet s.gap.cr s.srWord s.gap.gap.dmacr = s.quietNow := by
  have hgap := h.gap_moves
  rw [State.quietNow, hgap.cr_eq, (hgap.gap h).dmacr_eq]

theorem quietNow_of_disabled (h : crypen s.cr = false) : s.quietNow = true := quietNow_iff.2 (.inl h)

/-! ### configure -/

theorem phaseField_encodeConfig (h : cfg.wf = true) : phaseField (encodeConfig cfg) = 0 :=
  (phaseField_eq_iff (encodeConfig cfg) 0).2 ((encodeConfig_and_phase h).trans BitVec.zero_and.symm)

/-- The writes of configure in a quiet block (R342, R355). -/
theorem configureWrites_eq (h : BlockInv s) (hq : s.quietNow = true) (hwf : cfg.wf = true) :
    configureWrites cfg s.cr s = { s with
      cr := encodeConfig cfg
      decKeyReady := if ksField s.cr = ksCode cfg then s.decKeyReady else false
      finalDone := if phaseField s.cr = 0 then s.finalDone else false
      ctl := { s.ctl with
        cfg := some cfg, tracker := none, keyPrepPending := false
        prepared := if ksField s.cr = ksCode cfg then s.ctl.prepared else false } } := by
  have hlegal := crLegal_encodeConfig hwf
  unfold configureWrites
  rw [wr_wCr_off (h.crWriteLegal_of_quiet hq hlegal) (h.idle_of_quiet hq) (crypen_encodeConfig hwf)
    (getLsbD_flush_of_crLegal hlegal), crStored_of_crLegal hlegal, ksField_encodeConfig, phaseField_encodeConfig hwf]
  rfl

/-- configure whose checks pass (R342). -/
theorem opConfigure_ready (h : BlockInv s) (hq : s.gap.quietNow = true)
    (hprep : needsKeyPrep cfg = true → s.ctl.prepared = true ∧ ksField s.cr = ksCode cfg) :
    opConfigure cfg s = (configureWrites cfg s.cr s.gap.gap.gap).gap.finish .configure .ok := by
  have hctl : s.gap.gap.ctl = s.ctl := (h.gap_moves.gap h).ctl_eq
  rw [opConfigure_eq, h.quiet_crFirst, hq, hctl, if_neg nofun, if_neg fun hno => hno.2 (hprep hno.1)]

/-- Settles O46: the one CR write, with DMA in the gaps before and after it. -/
theorem configureOpensTheSession : Obligations.ConfigureOpensTheSession := by
  unfold Obligations.ConfigureOpensTheSession
  intro s cfg h hwf hq hprep
  have hmoves := (h.gap_moves.gap h).gap h
  have hdma : DmaMoves s s.gap.gap.gap := hmoves.quiet hq
  have hblock : BlockInv (configureWrites cfg s.cr s.gap.gap.gap) :=
    ((hmoves.blockInv h).wr (.wCr _)).of_frame rfl
  refine ⟨_, next_congr (opConfigure_ready h (h.gap_moves.quietNow hq) hprep), ?_⟩
  have hwrites := configureWrites_eq (hmoves.blockInv h) (hmoves.quietNow hq) hwf
  rw [hmoves.cr_eq] at hwrites
  refine DmaMoves.trans ?_ (hblock.gap_dma ?_)
  · refine hdma.of_update rfl ?_
    rw [hwrites, hdma.rest]
    rfl
  · rw [hwrites]
    exact quietNow_of_disabled (crypen_encodeConfig hwf)

/-- configure of a disabled engine, where no other agent has a turn. -/
theorem opConfigure_unscheduled (h : BlockInv s) (hwf : cfg.wf = true) (hsched : s.sched = [])
    (hoff : crypen s.cr = false) : opConfigure cfg s =
      if needsKeyPrep cfg = true ∧ ¬(s.ctl.prepared = true ∧ ksField s.cr = ksCode cfg) then
        s.finish .configure (.err .keyPrepRequired)
      else (configureWrites cfg s.cr s).finish .configure .ok := by
  have hgap : s.gap = s := gap_unscheduled hsched
  have hq := quietNow_of_disabled hoff
  have hwrites : (configureWrites cfg s.cr s).gap = configureWrites cfg s.cr s := by
    apply gap_unscheduled
    rw [configureWrites_eq h hq hwf]
    exact hsched
  rw [opConfigure_eq, h.quiet_crFirst, hgap, hgap, hgap, hq, hwrites, if_neg nofun]

/-- R356: what configure has written, configure writes again. -/
theorem configureWrites_again (h : BlockInv s) (hq : s.quietNow = true) (hwf : cfg.wf = true) (r : OpResult) :
    configureWrites cfg (encodeConfig cfg) ((configureWrites cfg s.cr s).finish .configure r)
      = (configureWrites cfg s.cr s).finish .configure r := by
  have hblock : BlockInv ((configureWrites cfg s.cr s).finish .configure r) :=
    (h.wr (.wCr _)).of_frame rfl
  have hwrites := configureWrites_eq h hq hwf
  have hcr : ((configureWrites cfg s.cr s).finish .configure r).cr = encodeConfig cfg := by rw [hwrites]; rfl
  have hagain := configureWrites_eq hblock (quietNow_of_disabled (by rw [hcr]; exact crypen_encodeConfig hwf)) hwf
  rw [hcr, ksField_encodeConfig, phaseField_encodeConfig hwf] at hagain
  rw [hagain, hwrites]
  simp only [if_true]
  rfl

/-- Settles O47: the check of the key preparation decides both calls alike, and the writes are idempotent. -/
theorem configuringTwiceIsConfiguringOnce : Obligations.ConfiguringTwiceIsConfiguringOnce := by
  unfold Obligations.ConfiguringTwiceIsConfiguringOnce
  intro s cfg h hwf hsched hoff
  have hq := quietNow_of_disabled hoff
  have hfirst := opConfigure_unscheduled h hwf hsched hoff
  by_cases hmissing : needsKeyPrep cfg = true ∧ ¬(s.ctl.prepared = true ∧ ksField s.cr = ksCode cfg)
  · rw [if_pos hmissing] at hfirst
    have hsecond := opConfigure_unscheduled (s := s.finish .configure (.err .keyPrepRequired)) (h.of_frame rfl) hwf
      hsched hoff
    rw [State.finish_ctl, State.finish_cr, if_pos hmissing] at hsecond
    exact ⟨s, _, next_congr hfirst, next_congr hsecond⟩
  · rw [if_neg hmissing] at hfirst
    have hwrites := configureWrites_eq h hq hwf
    have hsecond := opConfigure_unscheduled (s := (configureWrites cfg s.cr s).finish .configure .ok)
      ((h.wr (.wCr _)).of_frame rfl) hwf (by rw [hwrites]; exact hsched)
      (by rw [hwrites]; exact crypen_encodeConfig hwf)
    have hcr : ((configureWrites cfg s.cr s).finish .configure .ok).cr = encodeConfig cfg := by rw [hwrites]; rfl
    rw [hcr, configureWrites_again h hq hwf, ksField_encodeConfig, if_neg] at hsecond
    · exact ⟨_, _, next_congr hfirst, next_congr hsecond⟩
    · rintro ⟨hneeds, hno⟩
      obtain ⟨hprep, hks⟩ := not_not.1 fun hne => hmissing ⟨hneeds, hne⟩
      refine hno ⟨?_, rfl⟩
      rw [hwrites]
      exact (if_pos hks).trans hprep

/-! ### flushFIFOs -/

/-- The flush of a disabled engine (R36, R345). -/
theorem wr_wCr_flush (h : BlockInv s) (hoff : crypen s.cr = false) : s.wr (rowWCr (s.cr ||| fflushMask)) = { s with
    inQ := [], outQ := [], events := s.events ++ notifications s { s with inQ := [], outQ := [] } } := by
  have hq := quietNow_of_disabled hoff
  have hstored := crStored_setFlush h.cr_legal
  have hlegal := h.crWriteLegal_quiet (v := s.cr ||| fflushMask) hq (by rw [hstored]; exact h.cr_legal.2)
  rw [wr_wCr_legal s hlegal, crApply_idle s _ (h.idle_of_quiet hq), hstored, startZeroInputPass_same, getLsbD_setFlush,
    if_pos rfl, if_pos rfl, if_pos rfl, if_pos rfl, notifyCheck_eq]

/-- Settles O50: the engine is disabled and so idle, and the one CR write is the flush. -/
theorem flushEmptiesBothFifos : Obligations.FlushEmptiesBothFifos := by
  unfold Obligations.FlushEmptiesBothFifos
  intro s h hoff
  have hq : s.quietNow = true := quietNow_of_disabled hoff
  have hmoves := h.gap_moves.gap h
  have hblock := hmoves.blockInv h
  have hoff' : crypen s.gap.gap.cr = false := hmoves.cr_eq ▸ hoff
  have hflush := wr_wCr_flush hblock hoff'
  have hcr : s.gap.cr = s.gap.gap.cr := h.gap_moves.cr_eq.trans hmoves.cr_eq.symm
  refine ⟨s.gap.gap, (s.gap.gap.wr (rowWCr (s.gap.gap.cr ||| fflushMask))).gap, hmoves.quiet hq, ?_, ?_⟩
  · refine next_congr ?_
    rw [opFlushFIFOs_eq, h.idle_of_quiet hq, hcr, hoff']
    rfl
  · rw [← hflush]
    refine (hblock.wr (.wCr _)).gap_dma (quietNow_of_disabled ?_)
    rw [hflush]
    exact hoff'

end Sys2Proof.Machine
end

section
/-! Runs of register-file writes in a quiet block: loadKey and loadIV (R150, R151, R343, R344). -/

namespace Sys2Proof.Machine

variable {s t u : State} {cfg : EngineConfig}

/-! ### The register files and a run of writes to them -/

/-- What the rows W_KEY, W_IV, W_CSW and W_CSF write (R217 to R223). -/
structure RegFiles where
  key : Vector Word 8
  iv : Vector Word 4
  csw : Vector Word 8
  csf : Vector Word 8
  decKeyReady : Bool

/-- The register files of a state. -/
def State.files (s : State) : RegFiles :=
  { key := s.key, iv := s.iv, csw := s.csw, csf := s.csf, decKeyReady := s.decKeyReady }

/-- The state with other register files. -/
def State.withFiles (f : RegFiles) (s : State) : State :=
  { s with key := f.key, iv := f.iv, csw := f.csw, csf := f.csf, decKeyReady := f.decKeyReady }

/-- DMA leaves the register files alone. -/
theorem DmaMoves.files_eq (h : DmaMoves s t) : t.files = s.files := by
  rw [h.rest]
  rfl

theorem DmaMoves.withFiles (h : DmaMoves s t) (f : RegFiles) : DmaMoves (s.withFiles f) (t.withFiles f) :=
  h.of_update rfl (by rw [h.rest]; rfl)

theorem DmaMoves.withCtl (h : DmaMoves s t) (f : Controller → Controller) : DmaMoves (s.withCtl f) (t.withCtl f) :=
  h.of_update rfl (by rw [h.rest]; rfl)

theorem BlockInv.wrAll (h : BlockInv s) {rows : List Row} (hr : ∀ r ∈ rows, IsRow r) : BlockInv (s.wrAll rows) := by
  induction rows generalizing s with
  | nil => exact h
  | cons r rows ih =>
    obtain ⟨hr, hrows⟩ := List.forall_mem_cons.1 hr
    exact ih (h.gap.wr hr) hrows

/-- A run of register-file writes in a quiet block: each update in turn, and DMA in the gaps (R341). -/
theorem wrAll_quiet {α : Type} {row : α → Row} {update : RegFiles → α → RegFiles} (hr : ∀ a, IsRow (row a))
    (hrow : ∀ a (u : State), u.busy = false → u.wr (row a) = u.withFiles (update u.files a)) (ws : List α)
    (h : BlockInv s) (hq : s.quietNow = true) :
    DmaMoves (s.withFiles (ws.foldl update s.files)) (s.wrAll (ws.map row)) := by
  induction ws generalizing s with
  | nil => exact DmaMoves.refl s s.sched
  | cons a ws ih =>
    have hgap := h.gap_dma hq
    have hquiet : s.gap.quietNow = true := hgap.quietNow hq
    have hwr := hrow a s.gap (h.gap.idle_of_quiet hquiet)
    have hrest := ih (s := s.gap.wr (row a)) (h.gap.wr (hr a)) (by rw [hwr]; exact hquiet)
    rw [hwr] at hrest
    have hfiles : (s.gap.withFiles (update s.gap.files a)).files = update s.files a := by rw [hgap.files_eq]; rfl
    rw [hfiles] at hrest
    have hrun : s.wrAll ((a :: ws).map row) = (s.gap.withFiles (update s.gap.files a)).wrAll (ws.map row) := by
      rw [← hwr]
      rfl
    rw [hrun]
    exact (hgap.withFiles _).trans hrest

/-! ### Key registers -/

/-- A key register write (R217). -/
def RegFiles.writeKey (f : RegFiles) (p : Fin 8 × Word) : RegFiles :=
  { f with key := set8 f.key p.1 p.2, decKeyReady := false }

theorem wrAll_keyRows (h : BlockInv s) (hq : s.quietNow = true) (ws : List (Fin 8 × Word)) :
    DmaMoves (s.withFiles (ws.foldl RegFiles.writeKey s.files)) (s.wrAll (keyRows ws)) :=
  wrAll_quiet (fun p => .wKey p.1 p.2) (fun p u hb => wr_wKey u hb p.1 p.2) ws h hq

/-- The key file after a run of writes. -/
def writeKeys (ws : List (Fin 8 × Word)) (key : Vector Word 8) : Vector Word 8 :=
  ws.foldl (fun k p => set8 k p.1 p.2) key

/-- Key writes leave IV and context alone and make the key unprepared (R217). -/
theorem foldl_writeKey (ws : List (Fin 8 × Word)) (f : RegFiles) : ws.foldl RegFiles.writeKey f
    = { f with key := writeKeys ws f.key, decKeyReady := f.decKeyReady && ws.isEmpty } := by
  induction ws generalizing f with
  | nil => simp [writeKeys]
  | cons p ws ih =>
    rw [List.foldl_cons, ih]
    simp [RegFiles.writeKey, writeKeys]

theorem keyIndex_val {n : Nat} (h : n < 8) : (keyIndex n).val = n := Nat.mod_eq_of_lt h

/-- The half of a key pair that goes to an even or to an odd register. -/
def keyHalf (i : Nat) (p : WordPair) : Word := if i % 2 = 0 then p.1 else p.2

theorem getElem_set8 (key : Vector Word 8) (k i : Fin 8) (w : Word) :
    (set8 key k w)[i.val] = if k.val = i.val then w else key[i.val] :=
  Vector.getElem_set ..

/-- Two writes put a pair into its slot (R150). -/
theorem getElem_set8_pair (key : Vector Word 8) {q : Nat} (hq : q < 4) (p : WordPair) (i : Fin 8) :
    (set8 (set8 key (keyIndex (2 * q)) p.1) (keyIndex (2 * q + 1)) p.2)[i.val]
      = if i.val / 2 = q then keyHalf i.val p else key[i.val] := by
  rw [getElem_set8, getElem_set8, keyIndex_val (by omega), keyIndex_val (by omega), keyHalf]
  split_ifs <;> first | rfl | omega

/-- Pair j goes to slot q + j, and every other register stays (R150). -/
theorem getElem_writeKeys {ps : List WordPair} {q : Nat} (hq : q + ps.length ≤ 4) (key : Vector Word 8) (i : Fin 8) :
    (writeKeys (keyWritesFrom q ps) key)[i.val] = if q ≤ i.val / 2 ∧ i.val / 2 < q + ps.length then
      keyHalf i.val (ps.getD (i.val / 2 - q) (0, 0)) else key[i.val] := by
  induction ps generalizing q key with
  | nil =>
    rw [if_neg (by simp)]
    rfl
  | cons p ps ih =>
    rw [List.length_cons] at hq
    have hrest := ih (q := q + 1) (by omega) (set8 (set8 key (keyIndex (2 * q)) p.1) (keyIndex (2 * q + 1)) p.2)
    have hrun : writeKeys (keyWritesFrom q (p :: ps)) key = writeKeys (keyWritesFrom (q + 1) ps)
        (set8 (set8 key (keyIndex (2 * q)) p.1) (keyIndex (2 * q + 1)) p.2) := rfl
    rw [hrun, hrest, getElem_set8_pair key (by omega), List.length_cons]
    by_cases hslot : i.val / 2 = q
    · rw [if_neg (by omega), if_pos hslot, if_pos (by omega), hslot, Nat.sub_self]
      rfl
    · by_cases hlater : q + 1 ≤ i.val / 2 ∧ i.val / 2 < q + 1 + ps.length
      · rw [if_pos hlater, if_pos (by omega), show i.val / 2 - q = (i.val / 2 - (q + 1)) + 1 by omega]
        rfl
      · rw [if_neg hlater, if_neg hslot, if_neg (by omega)]

/-! ### loadKey -/

/-- R150: every configuration has a key, which fits the four slots. -/
theorem keySpan_bounds (m : Mode) (ks : Option KeySize) :
    1 ≤ (keySpan m ks).2 ∧ (keySpan m ks).1 + (keySpan m ks).2 ≤ 4 := by
  cases ks with
  | none => cases m <;> decide
  | some k => cases k <;> cases m <;> decide

theorem keyUsed_iff (cfg : EngineConfig) (i : Nat) : keyUsed cfg.mode cfg.keySize i = true ↔
    keySlot cfg 0 ≤ i / 2 ∧ i / 2 < keySlot cfg 0 + keyPairs cfg := by
  unfold keyUsed keySlot keyPairs
  rw [Bool.and_eq_true, decide_eq_true_eq, decide_eq_true_eq]
  omega

/-- The table of R150. -/
theorem keySpan_table {cfg : EngineConfig} (hwf : cfg.wf = true) :
    (cfg.mode = .desEcb ∨ cfg.mode = .desCbc → keySpan cfg.mode cfg.keySize = (1, 1))
      ∧ (cfg.mode = .tdesEcb ∨ cfg.mode = .tdesCbc → keySpan cfg.mode cfg.keySize = (1, 3))
      ∧ (cfg.keySize = some .k128 → keySpan cfg.mode cfg.keySize = (2, 2))
      ∧ (cfg.keySize = some .k192 → keySpan cfg.mode cfg.keySize = (1, 3))
      ∧ (cfg.keySize = some .k256 → keySpan cfg.mode cfg.keySize = (0, 4)) := by
  obtain ⟨m, w, ks, d⟩ := cfg
  have hks : ks.isSome = m.isAes := beq_iff_eq.1 hwf
  cases m <;> simp_all [keySpan, Mode.isAes]

/-- loadKey of a key of the right size, from a quiet block (R343). -/
theorem opLoadKey_ready (h : BlockInv s) (hcfg : s.ctl.cfg = some cfg) {key : List WordPair}
    (hlen : key.length = keyPairs cfg) (hq : s.quietNow = true) : opLoadKey key s =
      ((s.gap.gap.wrAll (keyRows (keyWrites cfg key))).withCtl forgetPreparation).gap.finish .loadKey .ok := by
  rw [opLoadKey_eq s hcfg, h.quiet_srFirst, hq, h.idle_of_quiet hq, if_neg (not_not.2 hlen), if_neg nofun, if_neg nofun]

/-- The writes of loadKey, with DMA in the gaps. -/
theorem loadKey_dma (h : BlockInv s) (hq : s.quietNow = true) (ws : List (Fin 8 × Word)) :
    DmaMoves ((s.withFiles (ws.foldl RegFiles.writeKey s.files)).withCtl forgetPreparation)
      ((s.gap.gap.wrAll (keyRows ws)).withCtl forgetPreparation).gap := by
  have hmoves := h.gap_moves.gap h
  have hdma : DmaMoves s s.gap.gap := hmoves.quiet hq
  have hwrites := wrAll_keyRows (hmoves.blockInv h) (hmoves.quietNow hq) ws
  rw [hdma.files_eq] at hwrites
  have hrun := ((hdma.withFiles (ws.foldl RegFiles.writeKey s.files)).trans hwrites).withCtl forgetPreparation
  have hblock : BlockInv ((s.gap.gap.wrAll (keyRows ws)).withCtl forgetPreparation) :=
    ((hmoves.blockInv h).wrAll (keyRows_isRow ws)).of_frame rfl
  exact hrun.trans (hblock.gap_dma (hrun.quietNow hq))

/-- Settles O48: the table by mode and key size, and the run of writes slot by slot. -/
theorem loadKeyWritesTheKeySlots : Obligations.LoadKeyWritesTheKeySlots := by
  unfold Obligations.LoadKeyWritesTheKeySlots
  refine ⟨fun cfg hwf j => ?table, fun s cfg key h hcfg hlen hq => ?writes⟩
  case table =>
    obtain ⟨hdes, htdes, h128, h192, h256⟩ := keySpan_table hwf
    have hspan : ∀ {q n : Nat}, keySpan cfg.mode cfg.keySize = (q, n) → keyPairs cfg = n ∧ keySlot cfg j = q + j :=
      fun e => by unfold keyPairs keySlot; rw [e]; exact ⟨rfl, rfl⟩
    exact ⟨fun e => hspan (hdes e), fun e => hspan (htdes e), fun e => hspan (h128 e), fun e => hspan (h192 e),
      fun e => hspan (h256 e), rfl, keyUsed_iff cfg⟩
  case writes =>
    obtain ⟨hpos, hfit⟩ := keySpan_bounds cfg.mode cfg.keySize
    have hne : (keyWrites cfg key).isEmpty = false := by
      cases key with
      | nil => exact absurd hlen (Nat.ne_of_lt hpos)
      | cons p ps => rfl
    have hdma := loadKey_dma h hq (keyWrites cfg key)
    rw [foldl_writeKey, hne, Bool.and_false] at hdma
    refine ⟨writeKeys (keyWrites cfg key) s.key, _, next_congr (opLoadKey_ready h hcfg hlen hq), fun i => ?_, hdma⟩
    rw [← hlen]
    exact getElem_writeKeys (hlen ▸ hfit) s.key i

/-! ### loadIV -/

/-- An IV register write (R219). -/
def RegFiles.writeIv (f : RegFiles) (p : Fin 4 × Word) : RegFiles := { f with iv := set4 f.iv p.1 p.2 }

theorem wrAll_ivRows (h : BlockInv s) (hq : s.quietNow = true) (ws : List (Fin 4 × Word)) :
    DmaMoves (s.withFiles (ws.foldl RegFiles.writeIv s.files)) (s.wrAll (ivRows ws)) :=
  wrAll_quiet (fun p => .wIv p.1 p.2) (fun p u hb => wr_wIv u hb p.1 p.2) ws h hq

/-- loadIV of a mode with IV registers, from a quiet block: the writes, with DMA in the gaps (R344). -/
theorem opLoadIV_ready (h : BlockInv s) (hcfg : s.ctl.cfg = some cfg) (hregs : ivRegs cfg.mode ≠ [])
    (hq : s.quietNow = true) (iv : IVMaterial) : ∃ t, opLoadIV iv s = t.finish .loadIV .ok
      ∧ DmaMoves (s.withFiles ((ivWrites cfg.mode iv).foldl RegFiles.writeIv s.files)) t := by
  have hmoves := h.gap_moves.gap h
  have hdma : DmaMoves s s.gap.gap := hmoves.quiet hq
  have hwrites := wrAll_ivRows (hmoves.blockInv h) (hmoves.quietNow hq) (ivWrites cfg.mode iv)
  rw [hdma.files_eq] at hwrites
  have hrun := (hdma.withFiles ((ivWrites cfg.mode iv).foldl RegFiles.writeIv s.files)).trans hwrites
  refine ⟨(s.gap.gap.wrAll (ivRows (ivWrites cfg.mode iv))).gap, ?_,
    hrun.trans (((hmoves.blockInv h).wrAll (ivRows_isRow _)).gap_dma (hrun.quietNow hq))⟩
  rw [opLoadIV_eq s hcfg, h.quiet_srFirst, hq, h.idle_of_quiet hq, if_neg hregs, if_neg nofun, if_neg nofun]

/-- The IV registers of the modes with a block of two words (R151). -/
theorem ivWrites_two {m : Mode} (hm : m = .tdesCbc ∨ m = .desCbc) (iv : IVMaterial) (f : RegFiles) :
    (ivWrites m iv).foldl RegFiles.writeIv f = { f with iv := #v[iv.iv0.1, iv.iv0.2, f.iv[2], f.iv[3]] } := by
  obtain ⟨a, b, c, d, hiv⟩ := exists_four_words f.iv
  obtain rfl | rfl := hm <;> simp [ivWrites, ivRegs, RegFiles.writeIv, set4, ivWordOf, hiv]

/-- The IV registers of the modes with a block of four words (R151). -/
theorem ivWrites_four {m : Mode} (hm : m = .aesCbc ∨ m = .aesCtr ∨ m = .aesGcm ∨ m = .aesCcm) (iv : IVMaterial)
    (f : RegFiles) :
    (ivWrites m iv).foldl RegFiles.writeIv f = { f with iv := #v[iv.iv0.1, iv.iv0.2, iv.iv1.1, iv.iv1.2] } := by
  obtain ⟨a, b, c, d, hiv⟩ := exists_four_words f.iv
  obtain rfl | rfl | rfl | rfl := hm <;> simp [ivWrites, ivRegs, RegFiles.writeIv, set4, ivWordOf, hiv]

/-- Settles O49: the register list of the mode, and the run of writes to it. -/
theorem loadIvWritesTheIvRegisters : Obligations.LoadIvWritesTheIvRegisters := by
  unfold Obligations.LoadIvWritesTheIvRegisters
  intro s cfg iv hcfg
  refine ⟨fun hm => ?none, fun h hq hm => ?two, fun h hq hm => ?four⟩
  case none =>
    have hregs : ivRegs cfg.mode = [] := by obtain hm | hm | hm | hm := hm <;> rw [hm] <;> rfl
    exact next_congr ((opLoadIV_eq s hcfg iv).trans (if_pos hregs))
  case two =>
    have hregs : ivRegs cfg.mode ≠ [] := by obtain hm | hm := hm <;> rw [hm] <;> nofun
    obtain ⟨t, hexec, hdma⟩ := opLoadIV_ready h hcfg hregs hq iv
    rw [ivWrites_two hm] at hdma
    exact ⟨t, next_congr hexec, hdma⟩
  case four =>
    have hregs : ivRegs cfg.mode ≠ [] := by obtain hm | hm | hm | hm := hm <;> rw [hm] <;> nofun
    obtain ⟨t, hexec, hdma⟩ := opLoadIV_ready h hcfg hregs hq iv
    rw [ivWrites_four hm] at hdma
    exact ⟨t, next_congr hexec, hdma⟩

end Sys2Proof.Machine
end

section
/-! The operations that always succeed: enable, disable, the flow predicates, and the DMA and interrupt operations (R346 to
R352, R402 to R405). -/

namespace Sys2Proof.Machine

variable {s t u : State} {cfg : EngineConfig}

/-! ### enable and disable -/

theorem BlockInv.crWriteLegal_setCrypen (h : BlockInv s) : crWriteLegal (s.cr ||| crypenMask) s :=
  crWriteLegal_same (crLegal_setCrypen h.cr_legal) (sameConfig_setCrypen s.cr)

theorem BlockInv.crWriteLegal_clearCrypen (h : BlockInv s) : crWriteLegal (s.cr &&& ~~~crypenMask) s :=
  crWriteLegal_same (crLegal_clearCrypen h.cr_legal) (sameConfig_clearCrypen s.cr)

/-- enable of a session, with a phase set where it is AEAD (R346). -/
theorem opEnable_ready (hcfg : s.ctl.cfg = some cfg) (hphase : ¬(cfg.mode.isAead = true ∧ s.ctl.tracker = none)) :
    opEnable s = (enableWrites cfg s.cr s.gap).gap.finish .enable .ok := by
  rw [opEnable_eq s hcfg, if_neg hphase]

/-- Settles O51: CRYPEN set passes every check, since it changes neither configuration nor phase. -/
theorem enableSetsCrypen : Obligations.EnableSetsCrypen := by
  unfold Obligations.EnableSetsCrypen
  intro s cfg h hcfg hphase
  have hgap := h.gap_moves
  have hlegal : crWriteLegal (s.cr ||| crypenMask) s.gap := hgap.cr_eq ▸ h.gap.crWriteLegal_setCrypen
  have hframe := wr_wCr_frame hlegal
  have hstored := crStored_of_crLegal (crLegal_setCrypen h.cr_legal)
  have hblock : BlockInv (enableWrites cfg s.cr s.gap) := (h.gap.wr (.wCr _)).of_frame rfl
  refine ⟨s.gap, s.gap.wr (rowWCr (s.cr ||| crypenMask)), (enableWrites cfg s.cr s.gap).gap, hgap, exec_wCr_eq_wr hlegal,
    (wr_wCr_cr hlegal).trans hstored, hframe.faults, ?_, next_congr (opEnable_ready hcfg ?_)⟩
  · have hctl : (s.gap.wr (rowWCr (s.cr ||| crypenMask))).ctl = s.ctl := hframe.ctl.trans hgap.ctl_eq
    have hmoves := hblock.gap_moves
    unfold enableWrites State.withCtl at hmoves ⊢
    rw [hctl] at hmoves ⊢
    exact hmoves
  · rintro ⟨haead, hnone⟩
    exact hphase ((Mode.isAead_iff _).1 haead) hnone

/-- A disabled block is idle, with no pass in flight. -/
theorem BlockInv.idle_of_disabled (h : BlockInv s) (hoff : crypen s.cr = false) : s.Idle :=
  h.idle (h.idle_of_quiet (quietNow_of_disabled hoff))

/-- Settles O52: CRYPEN cleared passes every check, and leaves the engine without a step. -/
theorem disableClearsCrypen : Obligations.DisableClearsCrypen := by
  unfold Obligations.DisableClearsCrypen
  intro s h
  have hgap := h.gap_moves
  have hlegal : crWriteLegal (s.cr &&& ~~~crypenMask) s.gap := hgap.cr_eq ▸ h.gap.crWriteLegal_clearCrypen
  have hframe := wr_wCr_frame hlegal
  have hcr := (wr_wCr_cr hlegal).trans (crStored_of_crLegal (crLegal_clearCrypen h.cr_legal))
  have hoff : crypen (s.gap.wr (rowWCr (s.cr &&& ~~~crypenMask))).cr = false := by rw [hcr, crypen_clearCrypen]
  have hidle := (h.gap.wr (.wCr (s.cr &&& ~~~crypenMask))).idle_of_disabled hoff
  have hblock : BlockInv (disableWrites s.cr s.gap) := (h.gap.wr (.wCr _)).of_frame rfl
  refine ⟨s.gap, s.gap.wr (rowWCr (s.cr &&& ~~~crypenMask)), (disableWrites s.cr s.gap).gap, hgap, exec_wCr_eq_wr hlegal,
    hcr, hframe.faults, hidle.busy, hidle.pass, ?_, next_congr (opDisable_eq s)⟩
  have hctl : (s.gap.wr (rowWCr (s.cr &&& ~~~crypenMask))).ctl = s.ctl := hframe.ctl.trans hgap.ctl_eq
  have hdma := hblock.gap_dma (quietNow_of_disabled hoff)
  unfold disableWrites State.withCtl at hdma ⊢
  rw [hctl] at hdma ⊢
  exact hdma

/-! ### The flow predicates -/

/-- Settles O53: the value is computed at the read, and a gap follows. -/
theorem theFiveFlowPredicatesReadFresh : Obligations.TheFiveFlowPredicatesReadFresh := by
  unfold Obligations.TheFiveFlowPredicatesReadFresh
  refine ⟨fun s h => ?_, fun s h => ?_⟩
  · have hnote : BlockInv (notePreparation s) := h.of_frame rfl
    exact ⟨_, next_congr (opIsBusy_eq s), hnote.gap_moves⟩
  · have hread : ∀ op bit, flowPredicate op bit s = s.gap.finish op (.bool (s.srWord.getLsbD bit)) := flowPredicate_eq s
    refine ⟨⟨_, h.gap_moves, next_congr ((hread .inputNotFull 1).trans ?_)⟩,
      ⟨_, h.gap_moves, next_congr ((hread .inputEmpty 0).trans ?_)⟩,
      ⟨_, h.gap_moves, next_congr ((hread .outputNotEmpty 2).trans ?_)⟩,
      ⟨_, h.gap_moves, next_congr ((hread .outputFull 3).trans ?_)⟩⟩
    · rw [srWord_bit1]; rfl
    · rw [srWord_bit0]; rfl
    · rw [srWord_bit2]; rfl
    · rw [srWord_bit3]; rfl

/-! ### DMA and interrupts -/

/-- A DMACR value that lies in the two enable bits is stored as it stands (R49, R209). -/
theorem dmacr_or_and {d m : Word} (hd : d &&& ~~~lowTwoMask = 0) (hm : m &&& lowTwoMask = m) :
    (d ||| m) &&& lowTwoMask = d ||| m := by
  have hall := and_add_and d (m := lowTwoMask) (k := ~~~lowTwoMask) (BitVec.and_not_self _)
  rw [hd, show lowTwoMask ||| ~~~lowTwoMask = BitVec.allOnes 32 from rfl, BitVec.and_allOnes] at hall
  rw [BitVec.and_or_distrib_right, hm, show d &&& lowTwoMask = d from (BitVec.add_zero _).symm.trans hall]

theorem dmacr_and_not_and {d : Word} (hd : d &&& ~~~lowTwoMask = 0) (m : Word) :
    (d &&& ~~~m) &&& lowTwoMask = d &&& ~~~m := by
  have hor := dmacr_or_and (m := 0) hd rfl
  rw [show d ||| 0 = d from BitVec.or_zero] at hor
  rw [show (d &&& ~~~m) &&& lowTwoMask = (d &&& lowTwoMask) &&& ~~~m by ac_rfl, hor]

/-- setInputDMA and setOutputDMA: one DMACR write after one DMACR read (R349, R350). -/
theorem dmaToggle_moves (h : BlockInv s) (op : OpName) {m : Word} (hm : m &&& lowTwoMask = m) (b : Bool) :
    ∃ u t, AgentMoves s u ∧ dmaToggle op m b s = t.finish op .ok
      ∧ AgentMoves { u with dmacr := if b = true then s.dmacr ||| m else s.dmacr &&& ~~~m } t := by
  have hvalue : (if b = true then s.dmacr ||| m else s.dmacr &&& ~~~m) &&& lowTwoMask
      = if b = true then s.dmacr ||| m else s.dmacr &&& ~~~m := by
    cases b with
    | true => exact dmacr_or_and h.dmacr_legal hm
    | false => exact dmacr_and_not_and h.dmacr_legal m
  have hblock := (h.gap.wr (.wDmacr (if b = true then s.dmacr ||| m else s.dmacr &&& ~~~m))).gap_moves
  refine ⟨s.gap, _, h.gap_moves, dmaToggle_eq s op m b, ?_⟩
  rw [wr_wDmacr, hvalue] at hblock ⊢
  exact hblock

/-- The two mask bits as IMSCR stores them, for each pair of Booleans. -/
theorem maskWord_stored : ∀ inp out : Bool,
    ((((if out then 0x2 else 0) ||| (if inp then 0x1 else 0) : Word) &&& lowTwoMask).getLsbD 0 = inp)
      ∧ ((((if out then 0x2 else 0) ||| (if inp then 0x1 else 0) : Word) &&& lowTwoMask).getLsbD 1 = out) := by
  decide

/-- Settles O54: one read or write each, with the gaps beside it. -/
theorem dmaAndInterruptOperations : Obligations.DmaAndInterruptOperations := by
  unfold Obligations.DmaAndInterruptOperations
  refine ⟨fun s b h => ⟨?input, ?output⟩, fun s inp out h => ⟨?mask, ?status⟩⟩
  case input =>
    obtain ⟨u, t, hu, hop, ht⟩ := dmaToggle_moves h .setInputDMA (m := dienMask) rfl b
    exact ⟨u, t, hu, next_congr hop, ht⟩
  case output =>
    obtain ⟨u, t, hu, hop, ht⟩ := dmaToggle_moves h .setOutputDMA (m := doenMask) rfl b
    exact ⟨u, t, hu, next_congr hop, ht⟩
  case mask =>
    refine ⟨s.wr (rowWImscr ((if out then 0x2 else 0) ||| (if inp then 0x1 else 0))), _, ?_, ?_, ?_,
      (h.wr (.wImscr _)).gap_moves, rfl⟩
    · exact next_congr (hostTransaction_write s (row := rowWImscr _) rfl)
    · rw [wr_of_done (row := rowWImscr _) rfl, notifyCheck_imscr]
      exact (maskWord_stored inp out).1
    · rw [wr_of_done (row := rowWImscr _) rfl, notifyCheck_imscr]
      exact (maskWord_stored inp out).2
  case status => exact ⟨_, h.gap_moves, next_congr (opReadInterruptStatus_eq s)⟩

end Sys2Proof.Machine
end

section
/-! What the parts of a controller operation leave of the fault set and of the record of the key preparation: the moves
of the agents, the port rows and the legal CR writes (R340, R348, R354). -/

namespace Sys2Proof.Machine

variable {s t u : State} {v : Word}

/-! ### No faulting write -/

/-- No write from `s` to `t` faulted: the one fault added, if any, is the engine's KeyNotPrepared (R354). -/
def NoWriteFault (s t : State) : Prop := t.faults = s.faults ∨ t.faults = insertFault .keyNotPrepared s.faults

theorem NoWriteFault.trans (h : NoWriteFault s u) (k : NoWriteFault u t) : NoWriteFault s t := by
  obtain h | h := h <;> obtain k | k := k
  · exact .inl (k.trans h)
  · exact .inr (h ▸ k)
  · exact .inr (k.trans h)
  · exact .inr (by rw [k, h, insertFault_idem])

theorem NoWriteFault.of_eq (h : t.faults = s.faults) : NoWriteFault s t := .inl h

theorem AgentMoves.noWriteFault (h : AgentMoves s t) : NoWriteFault s t := h.faults

theorem NoWriteFault.gap (h : NoWriteFault s t) (ht : BlockInv t) : NoWriteFault s t.gap := h.trans ht.gap_moves.noWriteFault

/-- A legal CR write records no fault (R201). -/
theorem NoWriteFault.wr_wCr (hv : crWriteLegal v s) : NoWriteFault s (s.wr (rowWCr v)) := .of_eq (wr_wCr_frame hv).faults

/-! ### Moves that keep the record -/

/-- From `s` to `t` no write faulted, the controller's fields and the configured mode stayed, and a prepared key stayed
prepared. -/
structure LegalMoves (s t : State) : Prop where
  block : BlockInv t
  faults : NoWriteFault s t
  ctl : t.ctl = s.ctl
  mode : crMode t.cr = crMode s.cr
  ready : s.decKeyReady = true → t.decKeyReady = true

/-- Legal moves that do not abort a key preparation. -/
structure SafeMoves (s t : State) : Prop extends LegalMoves s t where
  keyPrep : s.pass = some .keyPrep → t.pass = some .keyPrep ∨ t.decKeyReady = true

theorem LegalMoves.trans (h : LegalMoves s u) (k : LegalMoves u t) : LegalMoves s t where
  block := k.block
  faults := h.faults.trans k.faults
  ctl := k.ctl.trans h.ctl
  mode := k.mode.trans h.mode
  ready hr := k.ready (h.ready hr)

theorem SafeMoves.trans (h : SafeMoves s u) (k : SafeMoves u t) : SafeMoves s t where
  toLegalMoves := h.toLegalMoves.trans k.toLegalMoves
  keyPrep hp := (h.keyPrep hp).elim k.keyPrep fun hr => .inr (k.ready hr)

/-- Safe moves keep the controller's record true (R348). -/
theorem SafeMoves.ctlInv (h : SafeMoves s t) (hc : CtlInv s) : CtlInv t where
  session cfg := by
    rw [h.ctl, h.mode]
    exact hc.session cfg
  prepared := by
    rw [h.ctl]
    exact fun hp => h.ready (hc.prepared hp)
  pending := by
    rw [h.ctl, h.mode]
    intro hp
    obtain ⟨hm, hr | hk⟩ := hc.pending hp
    · exact ⟨hm, .inl (h.ready hr)⟩
    · exact ⟨hm, (h.keyPrep hk).symm⟩

/-- A key preparation runs on or is done: its completion prepares the key (R274). -/
theorem AgentMoves.keyPrep (h : AgentMoves s t) (hp : s.pass = some .keyPrep) :
    t.pass = some .keyPrep ∨ t.decKeyReady = true := by
  refine h.induct (P := fun v => v.pass = some .keyPrep ∨ v.decKeyReady = true) (fun _ _ hv => hv)
    (fun v a hv => ?_) (.inl hp)
  refine agentStep_of_enabled (P := fun w => w.pass = some .keyPrep ∨ w.decKeyReady = true) hv (fun w e => ?engine)
    (fun w e => ?input) (fun w e => ?output) a
  case engine => exact .inr (hv.elim (engineMoves_of_engineStep e).keyPrep (engineMoves_of_engineStep e).ready)
  case input =>
    obtain ⟨_, _, _, _, ht⟩ := dmaInStep_some v e
    rw [ht]
    exact hv
  case output =>
    obtain ⟨_, _, _, ht⟩ := dmaOutStep_some v e
    rw [ht]
    exact hv

theorem AgentMoves.safe (h : AgentMoves s t) (hs : BlockInv s) : SafeMoves s t where
  block := h.blockInv hs
  faults := h.noWriteFault
  ctl := h.ctl_eq
  mode := congrArg crMode h.cr_eq
  ready := h.ready
  keyPrep := h.keyPrep

theorem SafeMoves.start (h : BlockInv s) : SafeMoves s s := ⟨⟨h, .of_eq rfl, rfl, rfl, id⟩, .inl⟩

theorem SafeMoves.gap (h : SafeMoves s t) : SafeMoves s t.gap := h.trans (h.block.gap_moves.safe h.block)

theorem LegalMoves.gap (h : LegalMoves s t) : LegalMoves s t.gap :=
  h.trans (h.block.gap_moves.safe h.block).toLegalMoves

/-! ### Register transactions -/

/-- A port row that does not fault and leaves the prepared key alone. -/
theorem SafeMoves.of_port {row : Row} {x : Option Word} (h : BlockInv s) (hr : IsRow row) (hrow : row s = .done t x)
    (hport : PortMoves s t) (hready : t.decKeyReady = s.decKeyReady) : SafeMoves s (transaction 4 row s).1 := by
  have hblock : BlockInv (transaction 4 row s).1 := h.transaction hr 4
  have hframe := hport.frame
  rw [transaction_done s hrow] at hblock ⊢
  refine ⟨⟨hblock, .of_eq ?_, ?_, ?_, ?_⟩, ?_⟩
  · rw [notifyCheck_faults, hframe]
  · rw [notifyCheck_ctl, hframe]
  · rw [notifyCheck_cr, hframe]
  · rw [notifyCheck_decKeyReady, hready]
    exact id
  · rw [notifyCheck_pass, hframe]
    exact .inl

theorem SafeMoves.wr_wDmacr (h : SafeMoves s t) (d : Word) : SafeMoves s (t.wr (rowWDmacr d)) :=
  h.trans (.of_port h.block (.wDmacr d) rfl ⟨rfl, fun _ => rfl⟩ rfl)

/-- A CR write that keeps mode and KEYSIZE and starts no key preparation (R62, R201). -/
theorem LegalMoves.of_wCr (h : BlockInv s) (hv : crWriteLegal v s) (hcfg : s.cr &&& cfgMask = crStored v &&& cfgMask)
    (hkp : ¬(keyPrepCondition (crStored v) = true ∧ keyPrepCondition s.cr = false)) : LegalMoves s (s.wr (rowWCr v)) where
  block := h.wr (.wCr v)
  faults := .wr_wCr hv
  ctl := (wr_wCr_frame hv).ctl
  mode := by
    rw [wr_wCr_cr hv]
    exact (crMode_congr hcfg).symm
  ready := wr_wCr_ready hv h ((ksField_congr hcfg).trans (ksField_crStored v)) hkp

/-- The same from an idle engine, where no key preparation can be aborted. -/
theorem SafeMoves.of_wCr (h : BlockInv s) (hb : s.busy = false) (hv : crWriteLegal v s)
    (hcfg : s.cr &&& cfgMask = crStored v &&& cfgMask)
    (hkp : ¬(keyPrepCondition (crStored v) = true ∧ keyPrepCondition s.cr = false)) : SafeMoves s (s.wr (rowWCr v)) :=
  ⟨.of_wCr h hv hcfg hkp, fun hp => absurd (hb.symm.trans (h.busy_of_pass hp)) nofun⟩

/-! ### The outcome of an operation -/

/-- The errors that promise that nothing was written: all but the two timeouts (R340, R508). -/
def OpResult.checkFailed : OpResult → Bool
  | .err .drainTimeout | .err .keyPrepTimeout => false
  | .err _ => true
  | .ok | .okWord _ | .okSnapshot _ | .bool _ | .flags _ _ => false

theorem checkFailed_err {e : CtlError} (hd : e ≠ .drainTimeout) (hk : e ≠ .keyPrepTimeout) :
    (OpResult.err e).checkFailed = true := by
  cases e with
  | drainTimeout => exact absurd rfl hd
  | keyPrepTimeout => exact absurd rfl hk
  | _ => rfl

/-- What an operation from `s` promises of the state `t` before it returns `r`: no write faulted, the controller's record
stays true but where restore times out, and where a check failed only other agents have moved. -/
structure OpMoves (op : OpName) (s t : State) (r : OpResult) : Prop where
  faults : NoWriteFault s t
  record : (op, r) ≠ (.restore, .err .keyPrepTimeout) → CtlInv s → CtlInv t
  failed : r.checkFailed = true → AgentMoves s t

/-- The operation returns one result, after moves that keep those promises. -/
def Returns (op : OpName) (s s' : State) : Prop := ∃ t r, s' = t.finish op r ∧ OpMoves op s t r

namespace Returns

/-- A failed check: nothing but gaps between the host's reads. -/
theorem refused (h : BlockInv s) (hm : AgentMoves s t) (op : OpName) (e : CtlError) : Returns op s (t.finish op (.err e)) :=
  ⟨t, _, rfl, hm.noWriteFault, fun _ => (hm.safe h).ctlInv, fun _ => hm⟩

theorem safe (hm : SafeMoves s t) (op : OpName) {r : OpResult} (hr : r.checkFailed = false) : Returns op s (t.finish op r) :=
  ⟨t, r, rfl, hm.faults, fun _ => hm.ctlInv, fun hf => absurd (hr.symm.trans hf) nofun⟩

/-- An operation that ends with a write, a gap and its return. -/
theorem written (hb : BlockInv t) (hf : NoWriteFault s t) (hc : CtlInv s → CtlInv t) (op : OpName) {r : OpResult}
    (hr : r.checkFailed = false) : Returns op s (t.gap.finish op r) :=
  ⟨t.gap, r, rfl, hf.gap hb, fun _ h => (hb.gap_moves.safe hb).ctlInv (hc h), fun he => absurd (hr.symm.trans he) nofun⟩

end Returns

end Sys2Proof.Machine
end

section
/-! The promises of R340, R348 and R354 for every operation but restore, one lemma each. -/

namespace Sys2Proof.Machine

variable {s t u : State} {cfg : EngineConfig} {v : Word}

theorem BlockInv.gap2_moves (h : BlockInv s) : AgentMoves s s.gap.gap := h.gap_moves.gap h

theorem BlockInv.gap3_moves (h : BlockInv s) : AgentMoves s s.gap.gap.gap := h.gap2_moves.gap h

theorem keyPrepCondition_disabled {c : Word} (h : crypen c = false) : keyPrepCondition c = false := by
  unfold keyPrepCondition
  rw [h]
  rfl

/-- A word that does not enable AES-KeyPrep starts no key preparation. -/
theorem not_keyPrepEdge {old new : Word} (h : keyPrepCondition new = false) :
    ¬(keyPrepCondition new = true ∧ keyPrepCondition old = false) := fun he => absurd (h.symm.trans he.1) nofun

section
variable (h : DmaMoves s t)
include h

theorem DmaMoves.cr_eq : t.cr = s.cr := by rw [h.rest]
theorem DmaMoves.ctl_eq : t.ctl = s.ctl := by rw [h.rest]
theorem DmaMoves.faults_eq : t.faults = s.faults := by rw [h.rest]
theorem DmaMoves.pass_eq : t.pass = s.pass := by rw [h.rest]
theorem DmaMoves.decKeyReady_eq : t.decKeyReady = s.decKeyReady := by rw [h.rest]

end

/-- IV writes leave the prepared key alone (R219). -/
theorem foldl_writeIv_decKeyReady (ws : List (Fin 4 × Word)) (f : RegFiles) :
    (ws.foldl RegFiles.writeIv f).decKeyReady = f.decKeyReady := by
  induction ws generalizing f with
  | nil => rfl
  | cons p ws ih => exact ih _

theorem SafeMoves.of_ivRows (h : BlockInv s) (hq : s.quietNow = true) (ws : List (Fin 4 × Word)) :
    SafeMoves s (s.wrAll (ivRows ws)) := by
  have hdma := wrAll_ivRows h hq ws
  refine ⟨⟨h.wrAll (ivRows_isRow ws), .of_eq hdma.faults_eq, hdma.ctl_eq, congrArg crMode hdma.cr_eq, fun hr => ?_⟩,
    fun hp => .inl (hdma.pass_eq.trans hp)⟩
  exact hdma.decKeyReady_eq.trans ((foldl_writeIv_decKeyReady ws s.files).trans hr)

/-! ### CRYPEN cleared -/

/-- CRYPEN cleared, whatever the engine does: a prepared key stays prepared (R277, R347). -/
theorem LegalMoves.clearCrypen (h : BlockInv s) : LegalMoves s (s.wr (rowWCr (s.cr &&& ~~~crypenMask))) := by
  have hstored := crStored_of_crLegal (crLegal_clearCrypen h.cr_legal)
  refine .of_wCr h h.crWriteLegal_clearCrypen ?_ (not_keyPrepEdge ?_)
  · rw [hstored]
    exact (sameConfig_clearCrypen s.cr).cfg
  · rw [hstored]
    exact keyPrepCondition_disabled (crypen_clearCrypen s.cr)

/-! ### The record after configure and enable -/

/-- The record after configure is that of a new session (R342, R348). -/
theorem ctlInv_configureWrites (h : BlockInv s) (hq : s.quietNow = true) (hwf : cfg.wf = true) (hc : CtlInv s) :
    CtlInv (configureWrites cfg s.cr s) := by
  rw [configureWrites_eq h hq hwf]
  refine ⟨fun c hcfg => ?_, fun hp => ?_, nofun⟩
  · obtain rfl := Option.some.inj hcfg
    exact crMode_encodeConfig cfg
  · by_cases hks : ksField s.cr = ksCode cfg
    · exact (if_pos hks).trans (hc.prepared ((if_pos hks).symm.trans hp))
    · exact absurd ((if_neg hks).symm.trans hp) nofun

/-- Writing what CR holds changes nothing (R201). -/
theorem BlockInv.wr_cr_self (h : BlockInv s) : s.wr (rowWCr s.cr) = s := by
  have hlegal : crWriteLegal s.cr s := crWriteLegal_same h.cr_legal ⟨rfl, rfl⟩
  exact Host.Outcome.next.inj ((exec_wCr_eq_wr hlegal).symm.trans (rewritingCrChangesNothing s h))

/-- A CR write that enables AES-KeyPrep starts a key preparation (R278). -/
theorem pass_wr_wCr_keyPrep (hb : s.busy = false) (hv : crWriteLegal v s) (hnew : keyPrepCondition (crStored v) = true)
    (hold : keyPrepCondition s.cr = false) : (s.wr (rowWCr v)).pass = some .keyPrep := by
  rw [wr_wCr_legal s hv, notifyCheck_pass, crApply_idle s v hb, startZeroInputPass_keyPrep _ hnew hold]
  · rfl
  · exact hb

/-- The record after enable: a key preparation has started exactly where one is now pending (R278, R346). -/
theorem ctlInv_enableWrites (h : BlockInv s) (hcfg : s.ctl.cfg = some cfg) (hc : CtlInv s) :
    CtlInv (enableWrites cfg s.cr s) := by
  unfold enableWrites State.withCtl
  cases hen : crypen s.cr with
  | true =>
    rw [setCrypen_of_crypen hen, h.wr_cr_self]
    exact hc
  | false =>
    have hlegal := h.crWriteLegal_setCrypen
    have hstored := crStored_of_crLegal (crLegal_setCrypen h.cr_legal)
    have hsame : s.cr &&& cfgMask = crStored (s.cr ||| crypenMask) &&& cfgMask := by
      rw [hstored]
      exact (sameConfig_setCrypen s.cr).cfg
    have hmode : crMode (crStored (s.cr ||| crypenMask)) = some cfg.mode :=
      (crMode_congr hsame).symm.trans (hc.session cfg hcfg)
    have hb := h.idle_of_quiet (quietNow_of_disabled hen)
    by_cases hm : cfg.mode = .aesKeyPrep
    · have hnew : keyPrepCondition (crStored (s.cr ||| crypenMask)) = true :=
        (keyPrepCondition_iff _).2 ⟨by rw [hstored, crypen_setCrypen], hm ▸ hmode⟩
      have hpass := pass_wr_wCr_keyPrep hb hlegal hnew (keyPrepCondition_disabled hen)
      have hcr := wr_wCr_cr hlegal
      have hctl := (wr_wCr_frame hlegal).ctl
      simp only [hm, and_self, if_true]
      refine ⟨fun c hc' => ?_, nofun, fun _ => ⟨?_, .inr hpass⟩⟩
      · obtain rfl := Option.some.inj ((hcfg.symm.trans (congrArg Controller.cfg hctl).symm).trans hc')
        rw [hcr, hmode]
      · rw [hcr, hmode, hm]
    · have hnew : keyPrepCondition (crStored (s.cr ||| crypenMask)) = false := by
        rw [← Bool.not_eq_true, keyPrepCondition_iff, hmode]
        exact fun he => hm (Option.some.inj he.2)
      simp only [hm, and_false, if_false]
      exact (SafeMoves.of_wCr h hb hlegal hsame (not_keyPrepEdge hnew)).ctlInv hc

namespace Returns

variable (h : BlockInv s)
include h

/-! ### configure, loadKey, loadIV, flushFIFOs -/

theorem configure (hwf : cfg.wf = true) : Returns .configure s (opConfigure cfg s) := by
  rw [opConfigure_eq, h.quiet_crFirst]
  split_ifs with hq hprep
  · exact refused h h.gap3_moves _ _
  · exact refused h h.gap3_moves _ _
  · have hsafe := h.gap3_moves.safe h
    have hquiet : s.gap.gap.gap.quietNow = true :=
      ((h.gap.gap_moves).gap h.gap).quietNow (Bool.not_eq_false _ ▸ hq)
    have hlegal := hsafe.block.crWriteLegal_of_quiet hquiet (crLegal_encodeConfig hwf)
    have hblock : BlockInv (configureWrites cfg s.cr s.gap.gap.gap) := (hsafe.block.wr (.wCr _)).of_frame rfl
    refine written hblock (hsafe.faults.trans (NoWriteFault.wr_wCr hlegal)) (fun hc => ?_) _ rfl
    rw [← h.gap3_moves.cr_eq]
    exact ctlInv_configureWrites hsafe.block hquiet hwf (hsafe.ctlInv hc)

theorem loadKey (key : List WordPair) : Returns .loadKey s (opLoadKey key s) := by
  cases hcfg : s.ctl.cfg with
  | none =>
    rw [opLoadKey_unconfigured s hcfg]
    exact refused h (.refl s s.sched) _ _
  | some cfg =>
    rw [opLoadKey_eq s hcfg, h.quiet_srFirst]
    split_ifs with hlen hb hq
    · exact refused h (.refl s s.sched) _ _
    · exact refused h h.gap_moves _ _
    · exact refused h h.gap3_moves _ _
    · have hsafe := h.gap2_moves.safe h
      have hdma := wrAll_keyRows hsafe.block (h.gap2_moves.quietNow (Bool.not_eq_false _ ▸ hq)) (keyWrites cfg key)
      have hblock := hsafe.block.wrAll (keyRows_isRow (keyWrites cfg key))
      refine written (hblock.of_frame rfl) (hsafe.faults.trans (.of_eq ?_)) (fun hc => ⟨fun c hc' => ?_, ?_, ?_⟩) _ rfl
      · exact hdma.faults_eq
      · refine (congrArg crMode hdma.cr_eq).trans ((hsafe.ctlInv hc).session c ?_)
        exact (congrArg Controller.cfg hdma.ctl_eq).symm.trans hc'
      all_goals exact fun hf => absurd hf nofun

theorem loadIV (iv : IVMaterial) : Returns .loadIV s (opLoadIV iv s) := by
  cases hcfg : s.ctl.cfg with
  | none =>
    rw [opLoadIV_unconfigured s hcfg]
    exact refused h (.refl s s.sched) _ _
  | some cfg =>
    rw [opLoadIV_eq s hcfg, h.quiet_srFirst]
    split_ifs with hnone hb hq
    · exact safe (.start h) _ rfl
    · exact refused h h.gap_moves _ _
    · exact refused h h.gap3_moves _ _
    · have hsafe := h.gap2_moves.safe h
      have hquiet := h.gap2_moves.quietNow (Bool.not_eq_false _ ▸ hq)
      have hwrites := SafeMoves.of_ivRows hsafe.block hquiet (ivWrites cfg.mode iv)
      exact safe (hsafe.trans hwrites).gap _ rfl

theorem flushFIFOs : Returns .flushFIFOs s (opFlushFIFOs s) := by
  rw [opFlushFIFOs_eq, h.gap_moves.cr_eq]
  split_ifs with hb hon
  · exact refused h h.gap_moves _ _
  · exact refused h h.gap2_moves _ _
  · have hsafe := h.gap2_moves.safe h
    have hflush := wr_wCr_flush hsafe.block (h.gap2_moves.cr_eq ▸ Bool.not_eq_true _ ▸ hon)
    have hblock : BlockInv (s.gap.gap.wr (rowWCr (s.gap.gap.cr ||| fflushMask))) := hsafe.block.wr (.wCr _)
    rw [hflush] at hblock
    rw [← h.gap2_moves.cr_eq, hflush]
    exact safe (hsafe.trans ⟨⟨hblock, .of_eq rfl, rfl, rfl, id⟩, .inl⟩).gap _ rfl

/-! ### enable, disable, isBusy -/

theorem disable : Returns .disable s (opDisable s) := by
  have hmoves := (h.gap_moves.safe h).toLegalMoves.trans (.clearCrypen h.gap)
  rw [opDisable_eq, ← h.gap_moves.cr_eq]
  refine written (t := disableWrites s.gap.cr s.gap) (hmoves.block.of_frame rfl) hmoves.faults
    (fun hc => ⟨fun c hcfg => ?_, fun hp => ?_, nofun⟩) _ rfl
  · exact hmoves.mode.trans (hc.session c ((congrArg Controller.cfg hmoves.ctl).symm.trans hcfg))
  · exact hmoves.ready (hc.prepared ((congrArg Controller.prepared hmoves.ctl).symm.trans hp))

theorem enable : Returns .enable s (opEnable s) := by
  cases hcfg : s.ctl.cfg with
  | none =>
    rw [opEnable_unconfigured s hcfg]
    exact refused h (.refl s s.sched) _ _
  | some cfg =>
    rw [opEnable_eq s hcfg, ← h.gap_moves.cr_eq]
    split_ifs with hphase
    · exact refused h (.refl s s.sched) _ _
    · have hsafe := h.gap_moves.safe h
      have hfaults := hsafe.faults.trans (NoWriteFault.wr_wCr hsafe.block.crWriteLegal_setCrypen)
      refine written (t := enableWrites cfg s.gap.cr s.gap) ((hsafe.block.wr (.wCr _)).of_frame rfl) hfaults
        (fun hc => ?_) _ rfl
      exact ctlInv_enableWrites hsafe.block ((congrArg Controller.cfg hsafe.ctl).trans hcfg) (hsafe.ctlInv hc)

theorem isBusy : Returns .isBusy s (opIsBusy s) := by
  rw [opIsBusy_eq]
  refine written (s := s) (t := notePreparation s) (r := .bool s.busy) (h.of_frame rfl) (.of_eq rfl) (fun hc => ?_) _ rfl
  unfold notePreparation State.withCtl
  dsimp only
  split_ifs with hdone
  · obtain ⟨hidle, hpending⟩ := hdone
    refine ⟨hc.session, fun _ => ?_, nofun⟩
    obtain ⟨_, hr | hp⟩ := hc.pending hpending
    · exact hr
    · exact absurd (hidle.symm.trans (h.busy_of_pass hp)) nofun
  · exact hc

/-! ### DMA, interrupts and flow -/

theorem dmaToggle (op : OpName) (m : Word) (b : Bool) : Returns op s (dmaToggle op m b s) := by
  rw [dmaToggle_eq]
  exact safe ((h.gap_moves.safe h).wr_wDmacr _).gap _ rfl

theorem setInterruptMask (inp out : Bool) : Returns .setInterruptMask s (opSetInterruptMask inp out s) :=
  safe (SafeMoves.of_port (t := { s with imscr := _ }) h (.wImscr _) rfl ⟨rfl, fun _ => rfl⟩ rfl).gap _ rfl

theorem readInterruptStatus : Returns .readInterruptStatus s (opReadInterruptStatus s) := by
  rw [opReadInterruptStatus_eq]
  exact safe (h.gap_moves.safe h) _ rfl

theorem flowPredicate (op : OpName) (bit : Nat) : Returns op s (flowPredicate op bit s) := by
  rw [flowPredicate_eq]
  exact safe (h.gap_moves.safe h) _ rfl

/-- pushWord writes where SR has shown room, which no agent takes away while DMA-in is detached (R400). -/
theorem pushWord (w : Word) : Returns .pushWord s (opPushWord w s) := by
  rw [opPushWord_eq]
  split_ifs with hdma hfull
  · exact refused h h.gap_moves _ _
  · exact refused h h.gap2_moves _ _
  · have hsafe := h.gap2_moves.safe h
    have hle : s.gap.gap.inQ.length ≤ s.gap.inQ.length :=
      h.gap.gap_moves.inQ_le (h.gap_moves.dmacr_eq ▸ Bool.not_eq_true _ ▸ hdma)
    have hroom : s.gap.gap.inQ.length ≠ s.gap.gap.params.inDepth := by
      rw [h.gap.gap_moves.params_eq]
      intro he
      rw [Bool.not_eq_false, State.ifnf, decide_eq_true_eq] at hfull
      omega
    exact safe (hsafe.trans (.of_port hsafe.block (.wDin w) (if_neg hroom) ⟨rfl, fun _ => rfl⟩ rfl)).gap _ rfl

/-- popWord reads where SR has shown a word, which no agent takes away while DMA-out is detached (R401). -/
theorem popWord : Returns .popWord s (opPopWord s) := by
  rw [opPopWord_eq]
  split_ifs with hdma hempty
  · exact refused h h.gap_moves _ _
  · exact refused h h.gap2_moves _ _
  · have hsafe := h.gap2_moves.safe h
    have hgrows : s.gap.outQ <+: s.gap.gap.outQ :=
      h.gap.gap_moves.outQ_grows (h.gap_moves.dmacr_eq ▸ Bool.not_eq_true _ ▸ hdma)
    have hword : 0 < s.gap.outQ.length := by
      rw [Bool.not_eq_false, State.ofne, decide_eq_true_eq] at hempty
      exact hempty
    obtain ⟨w, q, hq⟩ := List.exists_cons_of_length_pos (hword.trans_le hgrows.length_le)
    have hrow : rowRDout s.gap.gap = .done { s.gap.gap with outQ := q } (some w) := by unfold rowRDout; rw [hq]
    exact safe (hsafe.trans (.of_port hsafe.block .rDout hrow ⟨rfl, fun _ => rfl⟩ rfl)).gap _ rfl

/-! ### setPhase -/

theorem setPhase (p : Phase) : Returns .setPhase s (opSetPhase p s) := by
  cases hcfg : s.ctl.cfg with
  | none =>
    rw [opSetPhase_unconfigured s hcfg]
    exact refused h (.refl s s.sched) _ _
  | some cfg =>
    rw [opSetPhase_eq s hcfg, h.quiet_crFirst]
    split_ifs with haead hallowed hq
    · exact safe (.start h) _ rfl
    · exact refused h (.refl s s.sched) _ _
    · exact refused h h.gap3_moves _ _
    · have hsafe := h.gap3_moves.safe h
      have hquiet : s.gap.gap.gap.quietNow = true :=
        ((h.gap.gap_moves).gap h.gap).quietNow (Bool.not_eq_false _ ▸ hq)
      have hlegal := crLegal_phaseWord h.cr_legal p
      have hstored := crStored_of_crLegal hlegal
      have hcfg : s.gap.gap.gap.cr &&& cfgMask = crStored (phaseWord p s.cr) &&& cfgMask := by
        rw [hstored, h.gap3_moves.cr_eq]
        exact (phaseWord_and rfl p s.cr).symm
      have hsame : keyPrepCondition (crStored (phaseWord p s.cr)) = keyPrepCondition s.gap.gap.gap.cr := by
        rw [hstored, h.gap3_moves.cr_eq]
        exact SameButPhase.keyPrepCondition_eq (phaseWord_and rfl p s.cr)
      have hmoves := hsafe.trans (.of_wCr hsafe.block (hsafe.block.idle_of_quiet hquiet)
        (hsafe.block.crWriteLegal_of_quiet hquiet hlegal) hcfg
        fun he => absurd ((hsame.symm.trans he.1).symm.trans he.2) nofun)
      refine written (t := setPhaseWrites p s.cr s.gap.gap.gap) (hmoves.block.of_frame rfl) hmoves.faults
        (fun hc => ?_) _ rfl
      exact ⟨(hmoves.ctlInv hc).session, (hmoves.ctlInv hc).prepared, (hmoves.ctlInv hc).pending⟩

end Returns
end Sys2Proof.Machine
end

section
/-! save's promises (R461, R462), and what a failed check of any operation leaves (R340, R508). -/

namespace Sys2Proof.Machine

variable {s t u : State} {cfg : EngineConfig} {v : Word}

/-! ### The drain poll and the context reads -/

/-- A poll of SR reads and waits: only other agents move (R158). -/
theorem BlockInv.pollSr_moves (h : BlockInv s) (m v : Word) (n : Nat) : AgentMoves s (pollSr m v n s).2 := by
  induction n generalizing s with
  | zero => exact .refl s s.sched
  | succ n ih =>
    unfold pollSr
    rw [rd_rSr]
    dsimp only
    split
    · exact h.gap_moves
    · exact h.gap_moves.trans (ih h.gap)

/-- A row that reads a register file: it returns a word whatever the engine does (R218, R220, R222). -/
structure FileRead (row : Row) : Prop where
  isRow : IsRow row
  done : ∀ u, ∃ t x, row u = .done t x ∧ PortMoves u t ∧ t.decKeyReady = u.decKeyReady

/-- The rows that read while idle and draw while busy. -/
theorem FileRead.of_draw {row : Row} (hr : IsRow row) (x : State → Word)
    (h : ∀ u : State, row u = if u.busy then .done u.draw.2 (some u.draw.1) else .done u (some (x u))) : FileRead row := by
  refine ⟨hr, fun u => ?_⟩
  rw [h]
  cases u.busy
  · exact ⟨u, _, rfl, ⟨rfl, fun _ => rfl⟩, rfl⟩
  · exact ⟨u.draw.2, _, rfl, ⟨rfl, fun _ => rfl⟩, rfl⟩

theorem fileRead_rIv (i : Fin 4) : FileRead (rowRIv i) := .of_draw (.rIv i) (fun u => get4 u.iv i) fun _ => rfl
theorem fileRead_rCsw (i : Fin 8) : FileRead (rowRCsw i) := .of_draw (.rCsw i) (fun u => get8 u.csw i) fun _ => rfl
theorem fileRead_rCsf (i : Fin 8) : FileRead (rowRCsf i) := .of_draw (.rCsf i) (fun u => get8 u.csf i) fun _ => rfl

theorem SafeMoves.rdAll (h : SafeMoves s t) {rows : List Row} (hrows : ∀ r ∈ rows, FileRead r) :
    SafeMoves s (t.rdAll rows).2 := by
  induction rows generalizing t with
  | nil => exact h
  | cons r rows ih =>
    obtain ⟨hr, hrest⟩ := List.forall_mem_cons.1 hrows
    obtain ⟨u, x, hdone, hport, hready⟩ := hr.done t.gap
    exact ih (h.gap.trans (.of_port h.gap.block hr.isRow hdone hport hready)) hrest

theorem saveRead_moves (h : BlockInv s) (cfg : EngineConfig) : SafeMoves s (saveRead cfg s) := by
  have hiv := (SafeMoves.start h).rdAll (rows := ivReadRows) (by simp [ivReadRows, fileRead_rIv])
  have hcsw := hiv.rdAll (rows := cswReadRows) (by simp [cswReadRows, fileRead_rCsw])
  have hcsf := hcsw.rdAll (rows := csfReadRows) (by simp [csfReadRows, fileRead_rCsf])
  unfold saveRead readContext
  split_ifs
  · dsimp only
    exact hcsf
  · exact hiv

/-! ### save -/

theorem saveStopped_moves (h : BlockInv s) (dm : Word) : LegalMoves s (saveStopped dm s) := by
  have hdetached := ((SafeMoves.start h).gap.wr_wDmacr (dm &&& ~~~(dienMask ||| doenMask))).gap
  have hcr := hdetached.block.gap_moves.cr_eq
  unfold saveStopped
  dsimp only
  rw [← hcr]
  exact hdetached.gap.toLegalMoves.trans (.clearCrypen hdetached.gap.block)

/-- save closes the session and forgets a pending preparation; a finished one stays true (R461). -/
theorem ctlInv_handOver (h : LegalMoves s t) (hc : CtlInv s) (snap : ContextSnapshot) : CtlInv (t.handOver snap) where
  session _ hcfg := absurd hcfg nofun
  prepared hp := h.ready (hc.prepared ((congrArg Controller.prepared h.ctl).symm.trans hp))
  pending hp := absurd hp nofun

namespace Returns

theorem save (h : BlockInv s) : Returns .save s (opSave s) := by
  cases hcfg : s.ctl.cfg with
  | none =>
    rw [opSave_unconfigured s hcfg]
    exact refused h (.refl s s.sched) _ _
  | some cfg =>
    have hdetached : SafeMoves s (saveDetached s) := (SafeMoves.start h).gap.wr_wDmacr _
    have hpoll : SafeMoves s (savePoll s).2 :=
      hdetached.trans ((hdetached.block.pollSr_moves _ _ _).safe hdetached.block)
    rw [opSave_eq s hcfg]
    split_ifs
    · exact refused h (.refl s s.sched) _ _
    · obtain ⟨snap, e⟩ := saveCapture_eq (savePoll s).2 cfg s.dmacr
      have hstopped := saveStopped_moves hpoll.block s.dmacr
      have hread := hpoll.toLegalMoves.trans (hstopped.trans (saveRead_moves hstopped.block cfg).toLegalMoves)
      rw [e]
      exact written (t := (saveRead cfg (saveStopped s.dmacr (savePoll s).2)).handOver snap) (hread.block.of_frame rfl)
        hread.faults (fun hc => ctlInv_handOver hread hc snap) _ rfl
    · exact safe (hpoll.gap.wr_wDmacr _).gap _ rfl

end Returns

/-! ### Every operation but restore -/

theorem exec_returns {i : Instr} (h : BlockInv s) (hwf : i.wf = true) (hop : i.isOp = true)
    (hrestore : ∀ arg key, i ≠ .restore arg key) (hexec : exec i s = .next t) :
    ∃ op, i.opName = some op ∧ Returns op s t := by
  cases i
  case configure cfg => cases hexec; exact ⟨_, rfl, .configure h hwf⟩
  case loadKey key => cases hexec; exact ⟨_, rfl, .loadKey h key⟩
  case loadIV iv => cases hexec; exact ⟨_, rfl, .loadIV h iv⟩
  case flushFIFOs => cases hexec; exact ⟨_, rfl, .flushFIFOs h⟩
  case enable => cases hexec; exact ⟨_, rfl, .enable h⟩
  case disable => cases hexec; exact ⟨_, rfl, .disable h⟩
  case isBusy => cases hexec; exact ⟨_, rfl, .isBusy h⟩
  case pushWord w => cases hexec; exact ⟨_, rfl, .pushWord h w⟩
  case popWord => cases hexec; exact ⟨_, rfl, .popWord h⟩
  case inputNotFull | inputEmpty | outputNotEmpty | outputFull => cases hexec; exact ⟨_, rfl, .flowPredicate h _ _⟩
  case setPhase p => cases hexec; exact ⟨_, rfl, .setPhase h p⟩
  case save => cases hexec; exact ⟨_, rfl, .save h⟩
  case restore arg key => exact absurd rfl (hrestore arg key)
  case setInputDMA b | setOutputDMA b => cases hexec; exact ⟨_, rfl, .dmaToggle h _ _ b⟩
  case setInterruptMask inp out => cases hexec; exact ⟨_, rfl, .setInterruptMask h inp out⟩
  case readInterruptStatus => cases hexec; exact ⟨_, rfl, .readInterruptStatus h⟩
  case opReserved20 | opReserved24 => cases hexec
  all_goals cases hop

/-! ### Failed checks -/

/-- A return can be read off the state: the operation's last entry in the history (R340). -/
theorem finish_inj {op op' : OpName} {r r' : OpResult} (h : s.finish op r = t.finish op' r') : s = t ∧ r = r' := by
  obtain ⟨hevents, hresult⟩ := List.append_inj' (congrArg State.events h) rfl
  obtain ⟨_, hr⟩ := Event.hostResult.inj (List.singleton_inj.1 hresult)
  refine ⟨?_, hr⟩
  calc s = { s.finish op r with events := s.events } := rfl
    _ = { t.finish op' r' with events := t.events } := by rw [h, hevents]
    _ = t := rfl

theorem isOp_of_opName {i : Instr} {op : OpName} (h : i.opName = some op) : i.isOp = true := by
  cases i <;> simp_all [Instr.opName, Instr.isOp]

/-- Where restore fails a check only other agents have moved, and otherwise it succeeds or times out (R464). -/
theorem opRestore_failed (h : BlockInv s) (arg : Option ContextSnapshot) (key : List WordPair) :
    ∃ t r, opRestore arg key s = t.finish .restore r ∧ (r.checkFailed = true → AgentMoves s t) := by
  obtain ⟨_, e⟩ | ⟨snap, cfg, _, _, _, _, e⟩ := opRestore_cases s arg key
  · exact ⟨_, _, e, fun _ => .refl s s.sched⟩
  rw [e, restoreBody_eq]
  split_ifs
  · exact ⟨_, _, rfl, fun _ => .refl s s.sched⟩
  · unfold restoreResume
    split_ifs <;> exact ⟨_, _, rfl, nofun⟩
  · exact ⟨_, _, rfl, fun _ => h.gap2_moves⟩

/-- Settles O43: each operation's failing branches hold gaps alone, and the state before the return is unique. -/
theorem failedChecksWriteNothing : Obligations.FailedChecksWriteNothing := by
  unfold Obligations.FailedChecksWriteNothing
  intro i s t op e h hwf hop hexec hdrain hprep
  have hfailed := checkFailed_err hdrain hprep
  suffices hret : ∃ op' t' r, t.finish op (.err e) = t'.finish op' r ∧ (r.checkFailed = true → AgentMoves s t') by
    obtain ⟨op', t', r, hfin, hmoves⟩ := hret
    obtain ⟨rfl, rfl⟩ := finish_inj hfin
    exact hmoves hfailed
  by_cases hrestore : ∃ arg key, i = .restore arg key
  · obtain ⟨arg, key, rfl⟩ := hrestore
    obtain ⟨t', r, heq, hmoves⟩ := opRestore_failed h arg key
    exact ⟨_, t', r, (Host.Outcome.next.inj hexec).symm.trans heq, hmoves⟩
  · obtain ⟨op', _, t', r, heq, hmoves⟩ := exec_returns h hwf (isOp_of_opName hop)
      (fun arg key hi => hrestore ⟨arg, key, hi⟩) hexec
    exact ⟨op', t', r, heq, hmoves.failed⟩

end Sys2Proof.Machine
end

section
/-! restore's promises (R464, R465): a parked block, the register writes to it, the key preparation inside restore, and the
two obligations over every operation (R340, R348, R354). -/

namespace Sys2Proof.Machine

variable {s t u : State} {cfg : EngineConfig} {v bits : Word}

/-! ### The configuration words of a snapshot -/

/-- A word that CR can hold with CRYPEN 0, as every snapshot's configuration bits are (R153). -/
structure SnapWord (bits : Word) : Prop where
  mask : bits &&& ~~~snapMask = 0
  reserved : reservedConfig bits = false

theorem SnapWord.legal (h : SnapWord bits) : crLegal bits := by
  refine ⟨?_, h.reserved⟩
  rw [show ~~~(cfgMask ||| phMask ||| crypenMask) = ~~~snapMask &&& ~~~crypenMask from rfl, ← BitVec.and_assoc, h.mask]
  exact BitVec.zero_and

theorem SnapWord.off (h : SnapWord bits) : crypen bits = false := by
  have hbit : crypen (bits &&& crypenMask) = crypen bits := by
    unfold crypen
    rw [BitVec.getLsbD_and]
    exact Bool.and_true _
  rw [← hbit, show crypenMask = ~~~snapMask &&& crypenMask from rfl, ← BitVec.and_assoc, h.mask]
  rfl

theorem crMode_keyPrepBits (bits : Word) : crMode (keyPrepBits bits) = some .aesKeyPrep := by
  have hmode : ∀ w : Word, modeField (w &&& 0x00080038) = modeField w := modeField_and rfl rfl
  have hbits : keyPrepBits bits &&& 0x00080038 = 0x00000038 := by
    unfold keyPrepBits
    rw [BitVec.and_or_distrib_right, BitVec.and_assoc, show ~~~(0x00080038 : Word) &&& 0x00080038 = 0 from rfl]
    exact (congrArg (· ||| _) BitVec.and_zero).trans rfl
  unfold crMode
  rw [← hmode, hbits]
  rfl

theorem ksField_keyPrepBits (bits : Word) : ksField (keyPrepBits bits) = ksField bits := by
  have hks : ∀ w : Word, ksField (w &&& 0x00000300) = ksField w := fun w => extractLsb'_and_of_allOnes rfl
  have hbits : keyPrepBits bits &&& 0x00000300 = bits &&& 0x00000300 := by
    unfold keyPrepBits
    rw [or_and_eq rfl, and_not_and_eq rfl]
  rw [← hks, hbits, hks]

/-- The key preparation configuration of an AES snapshot is one that CR can hold (R465). -/
theorem SnapWord.keyPrepBits (h : SnapWord bits) {m : Mode} (hmode : crMode bits = some m) (haes : m.isAes = true) :
    SnapWord (keyPrepBits bits) := by
  refine ⟨?_, ?_⟩
  · unfold Machine.keyPrepBits
    rw [or_and_eq rfl]
    exact and_and_not_eq_zero h.mask _
  · have hks := h.reserved
    unfold reservedConfig at hks ⊢
    rw [hmode] at hks
    rw [crMode_keyPrepBits, ksField_keyPrepBits]
    dsimp only at hks ⊢
    rw [haes] at hks
    exact hks

/-! ### A parked block -/

/-- The block as restore finds it: drained, and both DMA sides detached (R464). -/
structure Parked (s : State) : Prop where
  block : BlockInv s
  inQ : s.inQ = []
  outQ : s.outQ = []
  idle : s.busy = false
  input : dien s.dmacr = false
  output : doen s.dmacr = false

namespace Parked

theorem quietNow (h : Parked s) : s.quietNow = true :=
  quietNow_iff.2 (.inr ⟨drained_iff.2 ⟨h.inQ, h.outQ, h.idle⟩, h.input⟩)

/-- A parked block stays as it is until the host moves. -/
theorem gap_eq (h : Parked s) : s.gap = { s with sched := s.gap.sched } :=
  (h.block.gap_dma h.quietNow).detached h.input h.output

theorem gap (h : Parked s) : Parked s.gap := by
  refine ⟨h.block.gap, ?_, ?_, ?_, ?_, ?_⟩ <;> rw [h.gap_eq]
  · exact h.inQ
  · exact h.outQ
  · exact h.idle
  · exact h.input
  · exact h.output

/-- A CR write without CRYPEN to a parked block (R201). -/
theorem wr_wCr (h : Parked s) (hv : SnapWord v) : s.wr (rowWCr v) = { s with
    cr := v
    decKeyReady := if ksField s.cr = ksField v then s.decKeyReady else false
    finalDone := if phaseField s.cr = phaseField v then s.finalDone else false } := by
  rw [wr_wCr_off (h.block.crWriteLegal_of_quiet h.quietNow hv.legal) h.idle hv.off (getLsbD_flush_of_crLegal hv.legal),
    crStored_of_crLegal hv.legal]

theorem of_wr_wCr (h : Parked s) (hv : SnapWord v) : Parked (s.wr (rowWCr v)) := by
  refine ⟨h.block.wr (.wCr v), ?_, ?_, ?_, ?_, ?_⟩ <;> rw [h.wr_wCr hv]
  · exact h.inQ
  · exact h.outQ
  · exact h.idle
  · exact h.input
  · exact h.output

end Parked

/-- A row that stores in a register file: while the engine is idle it writes that file alone (R217 to R223). -/
structure FileWrite (row : Row) : Prop where
  isRow : IsRow row
  files : ∀ u : State, u.busy = false → ∃ f, u.wr row = u.withFiles f

theorem fileWrite_wKey (k : Fin 8) (w : Word) : FileWrite (rowWKey k w) :=
  ⟨.wKey k w, fun u hb => ⟨{ u.files with key := set8 u.key k w, decKeyReady := false }, wr_wKey u hb k w⟩⟩

theorem fileWrite_wIv (i : Fin 4) (w : Word) : FileWrite (rowWIv i w) :=
  ⟨.wIv i w, fun u hb => ⟨{ u.files with iv := set4 u.iv i w }, wr_wIv u hb i w⟩⟩

theorem fileWrite_wCsw (i : Fin 8) (w : Word) : FileWrite (rowWCsw i w) :=
  ⟨.wCsw i w, fun u hb => ⟨{ u.files with csw := set8 u.csw i w }, wr_wCsw u hb i w⟩⟩

theorem fileWrite_wCsf (i : Fin 8) (w : Word) : FileWrite (rowWCsf i w) :=
  ⟨.wCsf i w, fun u hb => ⟨{ u.files with csf := set8 u.csf i w }, wr_wCsf u hb i w⟩⟩

theorem fileWrite_restoreRows (cfg : EngineConfig) (snap : ContextSnapshot) (key : List WordPair) :
    ∀ r ∈ restoreRows cfg snap key, FileWrite r := by
  have hkey : ∀ r ∈ keyRows (keyWrites cfg key), FileWrite r :=
    List.forall_mem_map.2 fun p _ => fileWrite_wKey p.1 p.2
  have hiv : ∀ r ∈ (List.finRange 4).map fun i => rowWIv i (get4 snap.iv i), FileWrite r :=
    List.forall_mem_map.2 fun i _ => fileWrite_wIv i _
  have hctx : ∀ r ∈ contextRows snap.ctx, FileWrite r := by
    cases snap.ctx with
    | none => exact nofun
    | some c =>
      exact List.forall_mem_append.2 ⟨List.forall_mem_map.2 fun i _ => fileWrite_wCsw i _,
        List.forall_mem_map.2 fun i _ => fileWrite_wCsf i _⟩
  exact List.forall_mem_append.2 ⟨List.forall_mem_append.2 ⟨hkey, hiv⟩, hctx⟩

/-- A run of register-file writes to a parked block. -/
theorem Parked.wrAll (h : Parked s) {rows : List Row} (hr : ∀ r ∈ rows, FileWrite r) :
    ∃ f l, s.wrAll rows = { s.withFiles f with sched := l } := by
  induction rows generalizing s with
  | nil => exact ⟨s.files, s.sched, rfl⟩
  | cons r rows ih =>
    obtain ⟨hr, hrows⟩ := List.forall_mem_cons.1 hr
    obtain ⟨f, hf⟩ := hr.files s.gap h.gap.idle
    have hwr : Parked (s.gap.wr r) := by
      refine ⟨h.gap.block.wr hr.isRow, ?_, ?_, ?_, ?_, ?_⟩ <;> rw [hf]
      · exact h.gap.inQ
      · exact h.gap.outQ
      · exact h.gap.idle
      · exact h.gap.input
      · exact h.gap.output
    obtain ⟨f', l, hrest⟩ := ih hwr hrows
    refine ⟨f', l, hrest.trans ?_⟩
    rw [hf, h.gap_eq]
    rfl

/-! ### The writes of restore -/

/-- restore's writes to a parked block: the configuration stored, the register files written, no fault, and a controller
that counts on no prepared key (R464 steps 1 to 3). -/
theorem restoreWrites_parked (h : Parked s) (hbits : SnapWord bits) (cfg : EngineConfig) (snap : ContextSnapshot)
    (hsnap : snap.cfgBits = bits) (key : List WordPair) :
    Parked (restoreWrites cfg snap key s) ∧ (restoreWrites cfg snap key s).cr = bits
      ∧ (restoreWrites cfg snap key s).faults = s.faults ∧ (restoreWrites cfg snap key s).ctl.prepared = false := by
  subst hsnap
  have hstored := h.of_wr_wCr hbits
  have hrows := fileWrite_restoreRows cfg snap key
  obtain ⟨f, l, hwrites⟩ := hstored.wrAll hrows
  have hblock : BlockInv (restoreWrites cfg snap key s) :=
    (hstored.block.wrAll fun r hr => (hrows r hr).isRow).of_frame rfl
  have heq : restoreWrites cfg snap key s = State.withCtl (fun c => { c with prepared := false })
      { (s.wr (rowWCr snap.cfgBits)).withFiles f with sched := l } := congrArg (State.withCtl _) hwrites
  rw [h.wr_wCr hbits] at heq
  refine ⟨⟨hblock, ?_, ?_, ?_, ?_, ?_⟩, ?_, ?_, ?_⟩ <;> rw [heq]
  · exact h.inQ
  · exact h.outQ
  · exact h.idle
  · exact h.input
  · exact h.output
  all_goals rfl

/-! ### The end of restore -/

/-- restore's enable, and the session it opens (R464 step 4). -/
def restoreEnabled (cfg : EngineConfig) (snap : ContextSnapshot) (s : State) : State :=
  (s.wr (rowWCr (snap.cfgBits ||| crypenMask))).withCtl fun c =>
    { c with
      outstanding := removeId snap.id c.outstanding
      cfg := some cfg
      tracker := if cfg.mode.isAead then some (phaseOf snap.cfgBits) else none
      keyPrepPending := cfg.mode == .aesKeyPrep }

theorem restoreFinish_eq (cfg : EngineConfig) (snap : ContextSnapshot) (s : State) :
    restoreFinish cfg snap s = (restoreEnabled cfg snap s.gap).gap.finish .restore .ok := rfl

/-- restore enables and opens its session: the record after it is true of the engine (R464 step 4). -/
theorem restoreFinish_returns {snap : ContextSnapshot} (h : BlockInv t) (hbits : SnapWord snap.cfgBits)
    (hdec : decodeConfig snap.cfgBits = some cfg) (hcr : t.cr = snap.cfgBits) (hfaults : NoWriteFault s t)
    (hprep : t.ctl.prepared = true → t.decKeyReady = true ∧ cfg.mode ≠ .aesKeyPrep) :
    Returns .restore s (restoreFinish cfg snap t) := by
  have hgap := h.gap_moves
  have hcr' : t.gap.cr = snap.cfgBits := hgap.cr_eq.trans hcr
  have hoff : crypen t.gap.cr = false := hcr' ▸ hbits.off
  have hlegal : crWriteLegal (snap.cfgBits ||| crypenMask) t.gap := hcr' ▸ h.gap.crWriteLegal_setCrypen
  have hstored := crStored_of_crLegal (crLegal_setCrypen hbits.legal)
  have hsame : t.gap.cr &&& cfgMask = crStored (snap.cfgBits ||| crypenMask) &&& cfgMask := by
    rw [hstored, hcr']
    exact (sameConfig_setCrypen snap.cfgBits).cfg
  have hmode : crMode (crStored (snap.cfgBits ||| crypenMask)) = some cfg.mode := by
    rw [← crMode_congr hsame, hcr', crMode_of_decodeConfig hdec]
  have hmode' : crMode (t.gap.wr (rowWCr (snap.cfgBits ||| crypenMask))).cr = some cfg.mode := by
    rw [wr_wCr_cr hlegal, hmode]
  have hctl := (wr_wCr_frame hlegal).ctl.trans hgap.ctl_eq
  rw [restoreFinish_eq]
  refine Returns.written (t := restoreEnabled cfg snap t.gap) ((h.gap.wr (.wCr _)).of_frame rfl)
    ((hfaults.gap h).trans (.wr_wCr hlegal))
    (fun _ => ⟨fun c hc => ?session, fun hp => ?prepared, fun hp => ?pending⟩) _ rfl
  case session =>
    obtain rfl := Option.some.inj hc
    exact hmode'
  case prepared =>
    obtain ⟨hready, hm⟩ := hprep ((congrArg Controller.prepared hctl).symm.trans hp)
    have hnew : keyPrepCondition (crStored (snap.cfgBits ||| crypenMask)) = false := by
      rw [← Bool.not_eq_true, keyPrepCondition_iff, hmode]
      exact fun he => hm (Option.some.inj he.2)
    exact (LegalMoves.of_wCr h.gap hlegal hsame (not_keyPrepEdge hnew)).ready (hgap.ready hready)
  case pending =>
    have hm : cfg.mode = .aesKeyPrep := eq_of_beq hp
    refine ⟨hmode'.trans (congrArg some hm), .inr ?_⟩
    refine pass_wr_wCr_keyPrep (h.gap.idle_of_quiet (quietNow_of_disabled hoff)) hlegal ((keyPrepCondition_iff _).2 ⟨?_, ?_⟩)
      (keyPrepCondition_disabled hoff)
    · rw [hstored, crypen_setCrypen]
    · rw [hmode, hm]

/-! ### The key preparation inside restore -/

/-- A CR write to empty FIFOs leaves them empty (R36). -/
theorem wr_wCr_empty (hv : crWriteLegal v s) (hin : s.inQ = []) (hout : s.outQ = []) :
    (s.wr (rowWCr v)).inQ = [] ∧ (s.wr (rowWCr v)).outQ = [] := by
  rw [wr_wCr_legal s hv, notifyCheck_inQ, notifyCheck_outQ, crApply_changes]
  rw [hin, hout, ite_self]
  exact ⟨rfl, rfl⟩


/-- The block while restore waits for its key preparation: the FIFOs empty, DMA detached, and the pass in flight or done
(R465). -/
structure Preparing (s : State) : Prop where
  block : BlockInv s
  inQ : s.inQ = []
  outQ : s.outQ = []
  input : dien s.dmacr = false
  output : doen s.dmacr = false
  run : s.pass = some .keyPrep ∨ (s.pass = none ∧ s.decKeyReady = true)

namespace Preparing

theorem parked (h : Preparing s) (hb : s.busy = false) : Parked s := ⟨h.block, h.inQ, h.outQ, hb, h.input, h.output⟩

theorem ready (h : Preparing s) (hb : s.busy = false) : s.decKeyReady = true :=
  (h.run.resolve_left fun hp => absurd (hb.symm.trans (h.block.busy_of_pass hp)) nofun).2

/-- The one step that is ever enabled is the completion of the key preparation (R274). -/
theorem engineStep (h : Preparing s) (e : engineStep s = some t) : Preparing t := by
  have hblock : BlockInv t := h.block.engineStep e
  obtain hp | ⟨hp, _⟩ := h.run
  · rw [engineStep_keyPrep hp] at e
    obtain ⟨_, rfl⟩ := completeKeyPrep_some s e
    exact ⟨hblock, by simp [h.inQ], by simp [h.outQ], by simp [h.input], by simp [h.output], by simp⟩
  · have hb : s.busy = false := by rw [h.block.busy_iff, hp]; rfl
    rw [engineStep_quiet s (h.parked hb).quietNow h.block.busy_iff] at e
    cases e

theorem agentMoves (h : Preparing s) (hm : AgentMoves s t) : Preparing t :=
  hm.induct (fun _ _ hv => ⟨hv.block.of_frame rfl, hv.inQ, hv.outQ, hv.input, hv.output, hv.run⟩)
    (fun v a hv => agentStep_of_enabled (P := Preparing) hv (fun _ e => hv.engineStep e)
      (fun _ e => by rw [dmaInStep_detached v hv.input] at e; cases e)
      (fun _ e => by rw [dmaOutStep_detached v hv.output] at e; cases e) a) h

end Preparing

/-- The CR write that starts restore's key preparation (R278, R465). -/
theorem keyPrepStart (h : Parked s) (hoff : crypen s.cr = false) (hv : SnapWord v) (hmode : crMode v = some .aesKeyPrep) :
    crWriteLegal (v ||| crypenMask) s ∧ Preparing (s.wr (rowWCr (v ||| crypenMask))) := by
  have hcr := crLegal_setCrypen hv.legal
  have hlegal := h.block.crWriteLegal_of_quiet h.quietNow hcr
  have hstored := crStored_of_crLegal hcr
  have hnew : keyPrepCondition (crStored (v ||| crypenMask)) = true := by
    rw [hstored, keyPrepCondition_iff, ← crMode_congr (sameConfig_setCrypen v).cfg]
    exact ⟨crypen_setCrypen v, hmode⟩
  have hpass := pass_wr_wCr_keyPrep h.idle hlegal hnew (keyPrepCondition_disabled hoff)
  have hdmacr := wr_wCr_dmacr hlegal
  obtain ⟨hinQ, houtQ⟩ := wr_wCr_empty hlegal h.inQ h.outQ
  exact ⟨hlegal, h.block.wr (.wCr _), hinQ, houtQ, hdmacr ▸ h.input, hdmacr ▸ h.output, .inl hpass⟩

/-- A poll that matches has read the value it was after (R158). -/
theorem pollSr_match {m w : Word} {n : Nat} (h : (pollSr m w n s).1 = true) : (pollSr m w n s).2.srWord &&& m = w := by
  induction n generalizing s with
  | zero => cases h
  | succ n ih =>
    unfold pollSr at h ⊢
    rw [rd_rSr] at h ⊢
    dsimp only at h ⊢
    split at h
    · next hmatch =>
      rw [if_pos hmatch]
      exact eq_of_beq hmatch
    · next hmatch =>
      rw [if_neg hmatch]
      exact ih h

/-- The poll for BUSY 0 ends with the engine idle (R465). -/
theorem idle_of_pollSr {n : Nat} (h : (pollSr 0x10 0x00 n s).1 = true) : (pollSr 0x10 0x00 n s).2.busy = false := by
  have hbit := congrArg (·.getLsbD 4) (pollSr_match h)
  rw [BitVec.getLsbD_and, srWord_bit4] at hbit
  exact (Bool.and_true _).symm.trans hbit

/-! ### restore -/

/-- The configuration restored after a key preparation that is over: the key stays prepared (R62, R465). -/
theorem Preparing.wr_wCr (h : Preparing t) (hb : t.busy = false) (hcr : t.cr = keyPrepBits bits ||| crypenMask)
    (hbits : SnapWord bits) : Parked (t.gap.wr (rowWCr bits)) ∧ NoWriteFault t (t.gap.wr (rowWCr bits))
      ∧ (t.gap.wr (rowWCr bits)).cr = bits ∧ (t.gap.wr (rowWCr bits)).decKeyReady = true := by
  have hparked := (h.parked hb).gap
  have hks : ksField t.gap.cr = ksField bits := by
    rw [h.block.gap_moves.cr_eq, hcr, ← ksField_congr (sameConfig_setCrypen _).cfg, ksField_keyPrepBits]
  have hready := h.block.gap_moves.ready (h.ready hb)
  refine ⟨hparked.of_wr_wCr hbits, h.block.gap_moves.noWriteFault.trans (.of_eq ?_), ?_, ?_⟩ <;> rw [hparked.wr_wCr hbits]
  exact (if_pos hks).trans hready

/-- The two CR writes after a key preparation that timed out: the abort, and the configuration restored (R465). -/
theorem restore_timeout_noWriteFault (h : BlockInv t) (hcr : t.cr = keyPrepBits bits ||| crypenMask) (hbits : SnapWord bits)
    (hprep : SnapWord (keyPrepBits bits)) :
    NoWriteFault t ((t.gap.wr (rowWCr (keyPrepBits bits))).gap.wr (rowWCr bits)) := by
  have hcfg := sameConfig_setCrypen (keyPrepBits bits)
  have hsame : SameConfig t.gap.cr (keyPrepBits bits) := by
    rw [h.gap_moves.cr_eq, hcr]
    exact ⟨hcfg.cfg.symm, hcfg.phase.symm⟩
  have habort := crWriteLegal_same hprep.legal hsame
  have hblock : BlockInv (t.gap.wr (rowWCr (keyPrepBits bits))) := h.gap.wr (.wCr _)
  have hoff : crypen (t.gap.wr (rowWCr (keyPrepBits bits))).gap.cr = false := by
    rw [hblock.gap_moves.cr_eq, wr_wCr_cr habort, crStored_of_crLegal hprep.legal, hprep.off]
  exact (h.gap_moves.noWriteFault.trans (.wr_wCr habort)).trans
    (hblock.gap_moves.noWriteFault.trans
      (.wr_wCr (hblock.gap.crWriteLegal_of_quiet (quietNow_of_disabled hoff) hbits.legal)))

/-- restore's key preparation from its parked block: no fault, and on success a parked block with a prepared key. -/
theorem restoreKeyPrep_parked (h : Parked s) (hcr : s.cr = bits) (hbits : SnapWord bits) {m : Mode}
    (hmode : crMode bits = some m) (haes : m.isAes = true) :
    BlockInv (restoreKeyPrep bits s).2 ∧ NoWriteFault s (restoreKeyPrep bits s).2
      ∧ ((restoreKeyPrep bits s).1 = true →
        (restoreKeyPrep bits s).2.cr = bits ∧ (restoreKeyPrep bits s).2.decKeyReady = true) := by
  have hprep := hbits.keyPrepBits hmode haes
  have hoff : crypen s.gap.cr = false := by rw [h.block.gap_moves.cr_eq, hcr, hbits.off]
  obtain ⟨hlegal, hstart⟩ := keyPrepStart h.gap hoff hprep (crMode_keyPrepBits bits)
  have hfaults := (h.block.gap_moves.noWriteFault).trans (.wr_wCr hlegal)
  have hcr' := (wr_wCr_cr hlegal).trans (crStored_of_crLegal (crLegal_setCrypen hprep.legal))
  unfold restoreKeyPrep
  dsimp only
  generalize s.gap.wr (rowWCr (keyPrepBits bits ||| crypenMask)) = s1 at *
  have hpoll := hstart.block.pollSr_moves 0x10 0x00 s1.params.drainBudget
  have hmatch := idle_of_pollSr (s := s1) (n := s1.params.drainBudget)
  generalize pollSr 0x10 0x00 s1.params.drainBudget s1 = p at *
  have hpolled := hstart.agentMoves hpoll
  have hcrp := hpoll.cr_eq.trans hcr'
  have hfaultsp := hfaults.trans hpoll.noWriteFault
  split_ifs with hp
  · obtain ⟨hparked, hwrite, hcrw, hready⟩ := hpolled.wr_wCr (hmatch hp) hcrp hbits
    exact ⟨hparked.block.of_frame rfl, hfaultsp.trans hwrite, fun _ => ⟨hcrw, hready⟩⟩
  · have hwrites := restore_timeout_noWriteFault hpolled.block hcrp hbits hprep
    exact ⟨((hpolled.block.gap.wr (.wCr _)).gap.wr (.wCr _)).of_frame rfl, hfaultsp.trans hwrites, False.elim⟩

theorem mode_of_needsKeyPrep (h : needsKeyPrep cfg = true) : cfg.mode.isAes = true ∧ cfg.mode ≠ .aesKeyPrep := by
  have hm : cfg.mode.prepBeforeDec = true := (Bool.and_eq_true_iff.1 h).1
  generalize cfg.mode = m at hm ⊢
  revert hm
  cases m <;> decide

/-- restore after its register writes: with a key preparation of its own or without one (R464). -/
theorem restoreResume_returns {snap : ContextSnapshot} (h : Parked t) (hbits : SnapWord snap.cfgBits)
    (hdec : decodeConfig snap.cfgBits = some cfg) (hcr : t.cr = snap.cfgBits) (hfaults : NoWriteFault s t)
    (hprep : t.ctl.prepared = false) : Returns .restore s (restoreResume cfg snap t) := by
  unfold restoreResume
  by_cases hneeds : needsKeyPrep cfg = true
  · obtain ⟨haes, hm⟩ := mode_of_needsKeyPrep hneeds
    obtain ⟨hblock, hkp, hdone⟩ := restoreKeyPrep_parked h hcr hbits (crMode_of_decodeConfig hdec) haes
    rw [if_pos hneeds]
    split_ifs with hok
    · obtain ⟨hcr', hready⟩ := hdone hok
      exact restoreFinish_returns hblock hbits hdec hcr' (hfaults.trans hkp) fun _ => ⟨hready, hm⟩
    · exact ⟨_, _, rfl, (hfaults.trans hkp).gap hblock, fun hne => absurd rfl hne, nofun⟩
  · rw [if_neg hneeds]
    exact restoreFinish_returns h.block hbits hdec hcr hfaults fun hp => absurd (hprep.symm.trans hp) nofun

/-- What restore's two reads show: a parked block, which stays so (R464). -/
theorem parked_gap2 (h : BlockInv s) (hdrained : s.drained = true) (hdmacr : s.gap.dmacr &&& 3 = 0) : Parked s.gap.gap := by
  obtain ⟨hin, hout, hb⟩ := drained_iff.1 hdrained
  rw [h.gap_moves.dmacr_eq] at hdmacr
  have hbit : ∀ n, (s.dmacr &&& 3).getLsbD n = false := fun n => by rw [hdmacr]; exact BitVec.getLsbD_zero
  have hinput : dien s.dmacr = false := by
    have h0 := hbit 0
    rw [BitVec.getLsbD_and] at h0
    exact (Bool.and_true _).symm.trans h0
  have houtput : doen s.dmacr = false := by
    have h1 := hbit 1
    rw [BitVec.getLsbD_and] at h1
    exact (Bool.and_true _).symm.trans h1
  exact (Parked.mk h hin hout hb hinput houtput).gap.gap

/-- restore of a snapshot the host holds. -/
theorem restoreBody_returns {snap : ContextSnapshot} (h : BlockInv s) (hbits : SnapWord snap.cfgBits)
    (hdec : decodeConfig snap.cfgBits = some cfg) (key : List WordPair) :
    Returns .restore s (restoreBody cfg snap key s) := by
  rw [restoreBody_eq]
  split_ifs with hlen hparked
  · exact .refused h (.refl s s.sched) _ _
  · obtain ⟨hw, hcr, hfaults, hprep⟩ := restoreWrites_parked (parked_gap2 h hparked.1 hparked.2) hbits cfg snap rfl key
    exact restoreResume_returns hw hbits hdec hcr (h.gap2_moves.noWriteFault.trans (.of_eq hfaults)) hprep
  · exact .refused h h.gap2_moves _ _

theorem opRestore_returns (h : StateInv s) (arg : Option ContextSnapshot) (key : List WordPair) :
    Returns .restore s (opRestore arg key s) := by
  obtain ⟨_, e⟩ | ⟨snap, cfg, _, _, hheld, hdec, e⟩ := opRestore_cases s arg key
  · rw [e]
    exact .refused h.block (.refl s s.sched) _ _
  · obtain ⟨_, hmask, hreserved⟩ := h.ids.held snap hheld
    rw [e]
    exact restoreBody_returns h.block ⟨hmask, hreserved⟩ hdec key

/-! ### Every operation -/

theorem exec_op_returns {i : Instr} (h : StateInv s) (hwf : i.wf = true) (hop : i.isOp = true) (hexec : exec i s = .next t) :
    ∃ op, Returns op s t := by
  by_cases hrestore : ∃ arg key, i = .restore arg key
  · obtain ⟨arg, key, rfl⟩ := hrestore
    obtain rfl := Host.Outcome.next.inj hexec
    exact ⟨_, opRestore_returns h arg key⟩
  · obtain ⟨op, _, hret⟩ := exec_returns h.block hwf hop (fun arg key hi => hrestore ⟨arg, key, hi⟩) hexec
    exact ⟨op, hret⟩

/-- Settles O41: no write of any operation faults, and the engine adds KeyNotPrepared alone. -/
theorem controllerWritesNeverFault : Obligations.ControllerWritesNeverFault := by
  unfold Obligations.ControllerWritesNeverFault
  intro i s t hop hwf h hexec
  obtain ⟨_, u, r, rfl, hmoves⟩ := exec_op_returns h hwf hop hexec
  exact hmoves.faults

/-- Settles O40: each operation leaves a true record, and so do the moves of the agents. -/
theorem controllerRecordStaysTrue : Obligations.ControllerRecordStaysTrue := by
  unfold Obligations.ControllerRecordStaysTrue
  refine ⟨fun i s t hop hwf h hc hexec hlast => ?_, fun a s h hc => ((agentStep_moves s h.busy_iff a).safe h).ctlInv hc⟩
  obtain ⟨op, u, r, rfl, hmoves⟩ := exec_op_returns h hwf hop hexec
  have htrue : CtlInv u := by
    refine hmoves.record (fun he => hlast ?_) hc
    obtain ⟨rfl, rfl⟩ := Prod.mk.inj he
    exact List.getLast?_concat
  exact ⟨htrue.session, htrue.prepared, htrue.pending⟩

end Sys2Proof.Machine
end

section
/-! pushWord and popWord: no other agent takes away the room or the word that SR has shown, since the direction is detached
(R400, R401). -/

namespace Sys2Proof.Machine

variable {s t : State} {w : Word} {q : List Word}

/-! ### The two FIFO transactions -/

/-- A DIN write into a FIFO with room (R205). -/
theorem wr_wDin (hroom : s.inQ.length < s.params.inDepth) (w : Word) : s.wr (rowWDin w) = { s with
    inQ := s.inQ ++ [w], events := s.events ++ notifications s { s with inQ := s.inQ ++ [w] } } := by
  rw [wr_of_done (row := rowWDin w) (if_neg hroom.ne), notifyCheck_eq]

/-- A DOUT read from a FIFO that holds a word (R206). -/
theorem rd_rDout (hq : s.outQ = w :: q) : s.rd rowRDout =
    (w, { s with outQ := q, events := s.events ++ notifications s { s with outQ := q } }) := by
  have hrow : rowRDout s = .done { s with outQ := q } (some w) := by unfold rowRDout; rw [hq]
  unfold State.rd
  rw [transaction_done s hrow, notifyCheck_eq]
  rfl

/-! ### What a detached direction keeps -/

/-- Room in a detached input FIFO stays (R280). -/
theorem AgentMoves.inQ_lt (h : AgentMoves s t) (hd : dien s.dmacr = false) (hroom : s.inQ.length < s.params.inDepth) :
    t.inQ.length < t.params.inDepth :=
  h.params_eq ▸ (h.inQ_le hd).trans_lt hroom

/-- The oldest word of a detached output FIFO stays the oldest, with those behind it and the engine's after them (R281). -/
theorem AgentMoves.outQ_cons (h : AgentMoves s t) (hd : doen s.dmacr = false) (hq : s.outQ = w :: q) :
    ∃ q', t.outQ = w :: (q ++ q') := by
  obtain ⟨q', hq'⟩ := h.outQ_grows hd
  exact ⟨q', by rw [← hq', hq, List.cons_append]⟩

/-! ### The two operations once their checks have passed -/

/-- pushWord writes where SR, read after the first gap, shows room (R400). -/
theorem opPushWord_ready (hd : dien s.dmacr = false) (hroom : s.gap.inQ.length < s.gap.params.inDepth) (w : Word) :
    opPushWord w s = (s.gap.gap.wr (rowWDin w)).gap.finish .pushWord .ok := by
  have hifnf : s.gap.ifnf = true := decide_eq_true hroom
  rw [opPushWord_eq, hd, hifnf, if_neg nofun, if_neg nofun]

/-- popWord reads where SR, read after the first gap, shows a word (R401). -/
theorem opPopWord_ready (hd : doen s.dmacr = false) (hq : s.gap.outQ = w :: q) :
    opPopWord s = (s.gap.gap.rd rowRDout).2.gap.finish .popWord (.okWord (s.gap.gap.rd rowRDout).1) := by
  have hofne : s.gap.ofne = true := by unfold State.ofne; rw [hq]; rfl
  rw [opPopWord_eq, hd, hofne, if_neg nofun, if_neg nofun]

theorem pushWord_moves (h : BlockInv s) (hd : dien s.dmacr = false) (hroom : s.inQ.length < s.params.inDepth) (w : Word) :
    ∃ u t, AgentMoves s u ∧ u.inQ.length < u.params.inDepth
      ∧ AgentMoves { u with
          inQ := u.inQ ++ [w], events := u.events ++ notifications u { u with inQ := u.inQ ++ [w] } } t
      ∧ opPushWord w s = t.finish .pushWord .ok := by
  have hshown := h.gap_moves.inQ_lt hd hroom
  have hstill := h.gap2_moves.inQ_lt hd hroom
  have hafter := (h.gap.gap.wr (.wDin w)).gap_moves
  refine ⟨s.gap.gap, _, h.gap2_moves, hstill, ?_, opPushWord_ready hd hshown w⟩
  rw [wr_wDin hstill w] at hafter ⊢
  exact hafter

theorem popWord_moves (h : BlockInv s) (hd : doen s.dmacr = false) (hq : s.outQ = w :: q) :
    ∃ u q' t, AgentMoves s u ∧ u.outQ = w :: (q ++ q')
      ∧ AgentMoves { u with
          outQ := q ++ q', events := u.events ++ notifications u { u with outQ := q ++ q' } } t
      ∧ opPopWord s = t.finish .popWord (.okWord w) := by
  obtain ⟨_, hshown⟩ := h.gap_moves.outQ_cons hd hq
  obtain ⟨q', hstill⟩ := h.gap2_moves.outQ_cons hd hq
  have hafter : AgentMoves (s.gap.gap.rd rowRDout).2 (s.gap.gap.rd rowRDout).2.gap :=
    (h.gap.gap.transaction .rDout 4).gap_moves
  have hop := opPopWord_ready hd hshown
  rw [rd_rDout hstill] at hafter hop
  exact ⟨s.gap.gap, q', _, h.gap2_moves, hstill, hafter, hop⟩

/-! ### Without turns of the other agents -/

theorem opPushWord_unscheduled (hsched : s.sched = []) (hd : dien s.dmacr = false)
    (hroom : s.inQ.length < s.params.inDepth) (w : Word) : opPushWord w s = { s with
      inQ := s.inQ ++ [w]
      events := s.events ++ notifications s { s with inQ := s.inQ ++ [w] } ++ [.hostResult .pushWord .ok] } := by
  have hgap := gap_unscheduled hsched
  rw [opPushWord_ready hd (by rwa [hgap]), hgap, hgap, wr_wDin hroom, gap_unscheduled (by exact hsched)]
  rfl

theorem opPopWord_unscheduled (hsched : s.sched = []) (hd : doen s.dmacr = false) (hq : s.outQ = w :: q) :
    opPopWord s = { s with
      outQ := q
      events := s.events ++ notifications s { s with outQ := q } ++ [.hostResult .popWord (.okWord w)] } := by
  have hgap := gap_unscheduled hsched
  rw [opPopWord_ready hd (by rwa [hgap]), hgap, hgap, rd_rDout hq, gap_unscheduled (by exact hsched)]
  rfl

/-- Settles O55: the check reads SR between two gaps, and a detached FIFO keeps its room or its oldest word through both. -/
theorem pushWordAppendsAndPopWordTakesTheOldest : Obligations.PushWordAppendsAndPopWordTakesTheOldest := by
  unfold Obligations.PushWordAppendsAndPopWordTakesTheOldest
  refine ⟨fun s w h hd hroom => ?push, fun s w hsched hd hroom => next_congr (opPushWord_unscheduled hsched hd hroom w),
    fun s w q hsched hd hq => next_congr (opPopWord_unscheduled hsched hd hq), fun s w q h hd hq => ?pop⟩
  case push =>
    obtain ⟨u, t, hu, hlt, ht, hop⟩ := pushWord_moves h hd hroom w
    exact ⟨u, t, hu, hlt, ht, next_congr hop⟩
  case pop =>
    obtain ⟨u, q', t, hu, hq', ht, hop⟩ := popWord_moves h hd hq
    exact ⟨u, q', t, hu, hq', ht, next_congr hop⟩

end Sys2Proof.Machine
end

section
/-! setPhase from a quiet block: one CR write, which replaces the phase field and nothing else (R432). -/

namespace Sys2Proof.Machine

variable {s : State} {cfg : EngineConfig}

/-- The phase field written is the one read back (R38, R153). -/
theorem phaseOf_phaseWord (p : Phase) (c : Word) : phaseOf (phaseWord p c) = p := by
  have hcleared : (c &&& ~~~phMask) &&& phMask = 0 := (BitVec.and_assoc ..).trans BitVec.and_zero
  have hfield : phaseField (phaseWord p c) = phaseField (p.code.setWidth 32 <<< 16) := by
    rw [phaseField_eq_iff, phaseWord, BitVec.or_comm, or_and_eq hcleared]
  rw [phaseOf, hfield]
  cases p <;> rfl

/-- Quiet holds to the end of setPhase's three reads, so its CR write passes every check (R201, R341). -/
theorem BlockInv.crWriteLegal_phaseWord (h : BlockInv s) (hq : s.quietNow = true) (p : Phase) :
    crWriteLegal (phaseWord p s.cr) s.gap.gap.gap :=
  h.gap.gap.gap.crWriteLegal_of_quiet (h.gap3_moves.quietNow hq) (crLegal_phaseWord h.cr_legal p)

/-- setPhase whose checks pass (R432). -/
theorem opSetPhase_ready (h : BlockInv s) (hcfg : s.ctl.cfg = some cfg) (haead : cfg.mode.isAead = true) {p : Phase}
    (hallowed : phaseAllowed s.ctl.tracker p = true) (hq : s.quietNow = true) :
    opSetPhase p s = (setPhaseWrites p s.cr s.gap.gap.gap).gap.finish .setPhase .ok := by
  rw [opSetPhase_eq s hcfg, h.quiet_crFirst, h.gap_moves.quietNow hq, haead, hallowed, if_neg nofun, if_neg nofun,
    if_neg nofun]

/-- What setPhase writes is the CR write, with the tracker at the new phase (R432). -/
theorem BlockInv.setPhaseWrites_eq (h : BlockInv s) (hq : s.quietNow = true) (p : Phase) :
    setPhaseWrites p s.cr s.gap.gap.gap =
      { s.gap.gap.gap.wr (rowWCr (phaseWord p s.cr)) with ctl := { s.ctl with tracker := some p } } := by
  have hctl : (s.gap.gap.gap.wr (rowWCr (phaseWord p s.cr))).ctl = s.ctl :=
    (wr_wCr_frame (h.crWriteLegal_phaseWord hq p)).ctl.trans h.gap3_moves.ctl_eq
  unfold setPhaseWrites State.withCtl
  rw [hctl]

/-- Settles O56: the phase word passes every check of the quiet block, and a gap follows the write. -/
theorem setPhaseWritesThePhase : Obligations.SetPhaseWritesThePhase := by
  unfold Obligations.SetPhaseWritesThePhase
  intro s cfg p h hcfg haead hallowed hq
  have hlegal := h.crWriteLegal_phaseWord hq p
  have hcr : (s.gap.gap.gap.wr (rowWCr (phaseWord p s.cr))).cr = phaseWord p s.cr :=
    (wr_wCr_cr hlegal).trans (crStored_of_crLegal (crLegal_phaseWord h.cr_legal p))
  have hblock : BlockInv (setPhaseWrites p s.cr s.gap.gap.gap) := (h.gap.gap.gap.wr (.wCr _)).of_frame rfl
  refine ⟨s.gap.gap.gap, s.gap.gap.gap.wr (rowWCr (phaseWord p s.cr)), (setPhaseWrites p s.cr s.gap.gap.gap).gap,
    h.gap3_moves.quiet hq, exec_wCr_eq_wr hlegal, ?kept, ?phase, (wr_wCr_frame hlegal).faults,
    h.setPhaseWrites_eq hq p ▸ hblock.gap_moves,
    next_congr (opSetPhase_ready h hcfg (Mode.isAead_of haead) ((phaseAllowed_iff _ _).2 hallowed) hq)⟩
  case kept =>
    rw [hcr]
    exact phaseWord_and rfl p s.cr
  case phase => rw [hcr, phaseOf_phaseWord]

end Sys2Proof.Machine
end

section
/-! save: the drain poll beside the other agents, the capture of a drained block, and the timeout (R461 to R463). -/

namespace Sys2Proof.Machine

variable {s t u : State} {cfg : EngineConfig}

/-! ### The drained block -/

/-- No agent has a step in a drained block whose input side is detached (R272, R280, R281). -/
theorem BlockInv.settled_of_drained (h : BlockInv s) (hd : s.drained = true) (hin : dien s.dmacr = false) : s.settled :=
  ⟨engineStep_drained s hd h.busy_iff, dmaInStep_detached s hin, dmaOutStep_waits (.inl (drained_iff.1 hd).2.1)⟩

/-- save's drain poll waits for the drained block (R14, R462). -/
theorem srWord_drained_iff (s : State) : s.srWord &&& 0x15 = 0x01 ↔ s.drained = true := by
  rw [← drainedSr_srWord]
  unfold State.srWord
  cases s.busy <;> cases s.offu <;> cases s.ofne <;> cases s.ifnf <;> cases s.ifem <;> decide

/-- Where no agent has a step, every read of a poll returns the same word (R158). -/
theorem pollSr_settled (h : BlockInv s) (hs : s.settled) (m w : Word) {n : Nat} (hn : 0 < n) :
    (pollSr m w n s).1 = (s.srWord &&& m == w) := by
  induction n generalizing s with
  | zero => exact absurd hn (Nat.lt_irrefl 0)
  | succ n ih =>
    have hgap : s.gap = { s with sched := s.gap.sched } := h.gap_moves.settled hs
    have hword : s.gap.srWord = s.srWord := by rw [hgap]; rfl
    have hsettled : s.gap.settled := by rw [hgap]; exact (settled_sched s _).2 hs
    unfold pollSr
    rw [rd_rSr]
    dsimp only
    rw [hword]
    by_cases hmatch : (s.srWord &&& m == w) = true
    · rw [if_pos hmatch, hmatch]
    · rw [if_neg hmatch]
      cases n with
      | zero => exact (Bool.eq_false_iff.2 hmatch).symm
      | succ n => rw [ih h.gap hsettled n.succ_pos, hword]

/-! ### The input side detached for a while -/

theorem dien_detached (d : Word) : dien (d &&& ~~~dienMask) = false := by
  unfold dien
  rw [BitVec.getLsbD_and]
  exact Bool.and_false _

theorem doen_detached (d : Word) : doen (d &&& ~~~dienMask) = doen d := by
  unfold doen
  rw [BitVec.getLsbD_and]
  exact Bool.and_true _

/-- Clearing DIEN where it is clear changes nothing. -/
theorem detached_eq_self {d : Word} (h : dien d = false) : d &&& ~~~dienMask = d := by
  refine BitVec.eq_of_getLsbD_eq fun n hn => ?_
  have hbit : (~~~dienMask).getLsbD n = !decide (n = 0) := by
    revert n
    decide
  rw [BitVec.getLsbD_and, hbit]
  by_cases h0 : n = 0
  · subst h0
    rw [show d.getLsbD 0 = false from h]
    rfl
  · rw [decide_eq_false h0, Bool.not_false, Bool.and_true]

/-- StartBlock does not read DMACR (R272). -/
theorem startBlock_dmacr (s : State) (d : Word) :
    startBlock { s with dmacr := d } = (startBlock s).map fun t => { t with dmacr := d } := by
  unfold startBlock
  dsimp only
  split
  · rfl
  · rw [apply_ite (Option.map _), apply_ite (Option.map _)]
    refine ite_congr rfl (fun _ => ite_congr rfl (fun _ => rfl) fun _ => ?_) fun _ => rfl
    rw [notifyCheck_eq, notifyCheck_eq]
    rfl

/-- Nor does any other step of the engine (R273 to R276). -/
theorem engineStep_dmacr (s : State) (d : Word) :
    engineStep { s with dmacr := d } = (engineStep s).map fun t => { t with dmacr := d } := by
  unfold engineStep completeData completeKeyPrep completeInit completeTag
  rw [startBlock_dmacr]
  simp only [notifyCheck_eq]
  repeat' split
  all_goals rfl

/-- DMA-out reads DOEN alone of DMACR (R281). -/
theorem dmaOutStep_dmacr {d : Word} (hd : doen d = doen s.dmacr) (e : dmaOutStep s = some t) :
    dmaOutStep { s with dmacr := d } = some { t with dmacr := d } := by
  obtain ⟨w, hout, hen, ht⟩ := dmaOutStep_some s e
  rw [dmaOutStep_word (s := { s with dmacr := d }) hout (hd.trans hen), ht]
  rfl

/-- With the DMACR of `s` back in place, `v` is a state the agents reach from `s`; its own has the input side detached. -/
structure Reattached (s v : State) : Prop where
  dmacr : v.dmacr = s.dmacr &&& ~~~dienMask
  block : BlockInv { v with dmacr := s.dmacr }
  moves : AgentMoves s { v with dmacr := s.dmacr }

theorem Reattached.sched (h : Reattached s t) (l : List Turn) : Reattached s { t with sched := l } :=
  ⟨h.dmacr, h.block.of_frame rfl, h.moves.trans (.refl { t with dmacr := s.dmacr } l)⟩

/-- A step that can be taken as well with the input side attached. -/
theorem Reattached.step (h : Reattached s t) (a : Turn) (hd : u.dmacr = t.dmacr)
    (e : agentStep a { t with dmacr := s.dmacr } = { u with dmacr := s.dmacr }) : Reattached s u :=
  ⟨hd.trans h.dmacr, e ▸ h.block.agentStep a, h.moves.trans (e ▸ agentStep_moves _ h.block.busy_iff a)⟩

/-- DMA-in takes no turn, the engine does not read DMACR, and DMA-out reads DOEN alone. -/
theorem Reattached.agentStep (h : Reattached s t) (a : Turn) : Reattached s (agentStep a t) := by
  refine agentStep_of_enabled (P := Reattached s) h (fun u e => ?engine) (fun u e => ?input) (fun u e => ?output) a
  case engine =>
    exact h.step .engine (engineMoves_of_engineStep e).dmacr (by simp [Machine.agentStep, engineStep_dmacr, e])
  case input =>
    rw [dmaInStep_detached t (h.dmacr ▸ dien_detached s.dmacr)] at e
    cases e
  case output =>
    have hdoen : doen s.dmacr = doen t.dmacr := by rw [h.dmacr, doen_detached]
    refine h.step .dmaOut ?_ (by simp [Machine.agentStep, dmaOutStep_dmacr hdoen e])
    rw [(dmaOut_moves t e).rest]

/-- What the agents do while the input side is detached they can do as well while it is attached. -/
theorem AgentMoves.reattach (h : AgentMoves { s with dmacr := s.dmacr &&& ~~~dienMask } t) (hs : BlockInv s) :
    AgentMoves s { t with dmacr := s.dmacr } :=
  (h.induct (P := Reattached s) (fun _ l hv => hv.sched l) (fun _ a hv => hv.agentStep a)
    ⟨rfl, hs, .refl s s.sched⟩).moves

/-! ### The reads of a parked block -/

/-- A parked block is the same under another schedule. -/
theorem Parked.sched (h : Parked s) (l : List Turn) : Parked { s with sched := l } :=
  ⟨h.block.of_frame rfl, h.inQ, h.outQ, h.idle, h.input, h.output⟩

/-- A run of register reads in a parked block: the registers' values, and nothing else (R218, R220, R222). -/
theorem Parked.rdAll {α : Type} {row : α → Row} {value : State → α → Word}
    (hread : ∀ a (u : State), u.busy = false → u.rd (row a) = (value u a, u))
    (hsched : ∀ (u : State) l, value { u with sched := l } = value u) (as : List α) (h : Parked s) :
    ∃ l, s.rdAll (as.map row) = (as.map (value s), { s with sched := l }) := by
  induction as generalizing s with
  | nil => exact ⟨s.sched, rfl⟩
  | cons a as ih =>
    obtain ⟨l, hrest⟩ := ih h.gap
    refine ⟨l, ?_⟩
    rw [List.map_cons, State.rdAll, hread a s.gap h.gap.idle]
    dsimp only
    rw [hrest, h.gap_eq, hsched]
    rfl

theorem Parked.rdAll_iv (h : Parked s) : ∃ l, s.rdAll ivReadRows = (s.iv.toList, { s with sched := l }) := by
  obtain ⟨l, e⟩ := h.rdAll (value := fun u i => get4 u.iv i) (fun i u hb => rd_rIv u hb i) (fun _ _ => rfl) [0, 1, 2, 3]
  obtain ⟨a, b, c, d, hiv⟩ := exists_four_words s.iv
  refine ⟨l, e.trans ?_⟩
  rw [hiv]
  rfl

theorem Parked.rdAll_csw (h : Parked s) : ∃ l, s.rdAll cswReadRows = (s.csw.toList, { s with sched := l }) := by
  obtain ⟨l, e⟩ := h.rdAll (value := fun u i => get8 u.csw i) (fun i u hb => rd_rCsw u hb i) (fun _ _ => rfl)
    [0, 1, 2, 3, 4, 5, 6, 7]
  obtain ⟨a, b, c, d, e', f, g, i, hcsw⟩ := exists_eight_words s.csw
  refine ⟨l, e.trans ?_⟩
  rw [hcsw]
  rfl

theorem Parked.rdAll_csf (h : Parked s) : ∃ l, s.rdAll csfReadRows = (s.csf.toList, { s with sched := l }) := by
  obtain ⟨l, e⟩ := h.rdAll (value := fun u i => get8 u.csf i) (fun i u hb => rd_rCsf u hb i) (fun _ _ => rfl)
    [0, 1, 2, 3, 4, 5, 6, 7]
  obtain ⟨a, b, c, d, e', f, g, i, hcsf⟩ := exists_eight_words s.csf
  refine ⟨l, e.trans ?_⟩
  rw [hcsf]
  rfl

theorem argVec4_toList (x : Vector Word 4) : argVec4 x.toList 0 = x := by
  obtain ⟨a, b, c, d, rfl⟩ := exists_four_words x
  rfl

theorem argVec8_toList (x : Vector Word 8) : argVec8 x.toList 0 = x := by
  obtain ⟨a, b, c, d, e, f, g, i, rfl⟩ := exists_eight_words x
  rfl

/-- The context words that save takes: those of a GCM or CCM session (R461). -/
theorem Parked.readContext (h : Parked s) (aead : Bool) : ∃ l, readContext aead s =
    (if aead = true then some { working := s.csw, final := s.csf } else none, { s with sched := l }) := by
  cases aead with
  | false => exact ⟨s.sched, rfl⟩
  | true =>
    obtain ⟨l, hcsw⟩ := h.rdAll_csw
    obtain ⟨l', hcsf⟩ := (h.sched l).rdAll_csf
    refine ⟨l', ?_⟩
    unfold Machine.readContext
    rw [if_pos rfl, if_pos rfl, hcsw]
    dsimp only
    rw [hcsf, argVec8_toList, argVec8_toList]

/-! ### The capture -/

/-- The snapshot that save takes of a state (R67, R461). -/
def State.snapshot (cfg : EngineConfig) (s : State) : ContextSnapshot :=
  { id := s.ctl.nextId, cfgBits := s.cr &&& snapMask, iv := s.iv
    ctx := if cfg.mode.isAead = true then some { working := s.csw, final := s.csf } else none }

/-- What save leaves of a drained block: disabled, detached, and its snapshot with the host (R461). -/
def State.captured (cfg : EngineConfig) (s : State) : State :=
  { s with cr := s.cr &&& ~~~crypenMask, dmacr := 0 }.handOver (s.snapshot cfg)

theorem SnapWord.of_clearCrypen {c : Word} (h : crLegal c) : SnapWord (c &&& ~~~crypenMask) := by
  refine ⟨?_, (crLegal_clearCrypen h).2⟩
  rw [BitVec.and_assoc, show ~~~crypenMask &&& ~~~snapMask = ~~~(cfgMask ||| phMask ||| crypenMask) from rfl]
  exact h.1

/-- With both sides detached a drained block is parked (R461 step 3). -/
theorem parked_of_drained (h : BlockInv s) (hd : s.drained = true) : Parked { s with dmacr := 0 } := by
  obtain ⟨hin, hout, hb⟩ := drained_iff.1 hd
  exact ⟨h.dmacr 0, hin, hout, hb, BitVec.getLsbD_zero, BitVec.getLsbD_zero⟩

/-- The DMACR write that detaches both sides (R461 step 3). -/
theorem wr_detachBoth (s : State) (dm : Word) :
    s.wr (rowWDmacr (dm &&& ~~~(dienMask ||| doenMask))) = { s with dmacr := 0 } := by
  have hmask : (dm &&& ~~~(dienMask ||| doenMask)) &&& lowTwoMask = 0 := (BitVec.and_assoc ..).trans BitVec.and_zero
  rw [wr_wDmacr, hmask]

/-- CRYPEN cleared in a parked block: nothing else changes (R201). -/
theorem Parked.clearCrypen (h : Parked s) :
    s.wr (rowWCr (s.cr &&& ~~~crypenMask)) = { s with cr := s.cr &&& ~~~crypenMask } := by
  have hsame := sameConfig_clearCrypen s.cr
  rw [h.wr_wCr (.of_clearCrypen h.block.cr_legal), if_pos hsame.ksField_eq, if_pos hsame.phaseField_eq]

/-- save's capture, by what its transactions return: `u` once DMA is detached, `t` once CRYPEN is cleared (R461). -/
theorem saveCapture_of_reads {s3 s4 : State} {iv : Vector Word 4} {ctx : Option ContextWords} {dm : Word}
    (hdetach : s.gap.wr (rowWDmacr (dm &&& ~~~(dienMask ||| doenMask))) = u)
    (hstop : u.gap.gap.wr (rowWCr (u.gap.cr &&& ~~~crypenMask)) = t) (hiv : t.rdAll ivReadRows = (iv.toList, s3))
    (hctx : readContext cfg.mode.isAead s3 = (ctx, s4)) {snap : ContextSnapshot}
    (hsnap : { id := s4.ctl.nextId, cfgBits := u.gap.cr &&& snapMask, iv := iv, ctx := ctx } = snap) :
    saveCapture cfg dm s = (s4.handOver snap).gap.finish .save (.okSnapshot snap) := by
  subst hsnap
  unfold saveCapture
  simp only [rd_rCr, hdetach, hstop, hiv, hctx, argVec4_toList]
  rfl

/-- save's capture of a drained block takes its snapshot and leaves everything else as it was (R461 steps 3 to 5). -/
theorem saveCapture_drained (h : BlockInv s) (hd : s.drained = true) (hin : dien s.dmacr = false) (cfg : EngineConfig)
    (dm : Word) : ∃ l, saveCapture cfg dm s =
      { s.captured cfg with sched := l }.finish .save (.okSnapshot (s.snapshot cfg)) := by
  have hparked := parked_of_drained h hd
  have hgap : s.gap = { s with sched := s.gap.sched } := h.gap_moves.settled (h.settled_of_drained hd hin)
  have hwait : ∀ l, ∃ l', ({ s with dmacr := 0, sched := l } : State).gap = { s with dmacr := 0, sched := l' } :=
    fun l => ⟨_, (hparked.sched l).gap_eq⟩
  have hdetach : s.gap.wr (rowWDmacr (dm &&& ~~~(dienMask ||| doenMask)))
      = { s with dmacr := 0, sched := s.gap.sched } := by rw [wr_detachBoth, hgap]
  obtain ⟨l2, h2⟩ := hwait s.gap.sched
  obtain ⟨l3, h3⟩ := hwait l2
  have hstop := (hparked.sched l3).clearCrypen
  have hstopped := (hparked.sched l3).of_wr_wCr (.of_clearCrypen h.cr_legal)
  rw [hstop] at hstopped
  obtain ⟨l4, h4⟩ := hstopped.rdAll_iv
  obtain ⟨l5, h5⟩ := (hstopped.sched l4).readContext cfg.mode.isAead
  have hend : Parked { s.captured cfg with sched := l5 } :=
    ⟨hstopped.block.of_frame rfl, hstopped.inQ, hstopped.outQ, hstopped.idle, hstopped.input, hstopped.output⟩
  refine ⟨_, .trans (saveCapture_of_reads (snap := s.snapshot cfg) hdetach ?stop h4 h5 ?snap)
    (congrArg (State.finish _ _) hend.gap_eq)⟩
  case stop =>
    rw [h2, h3]
    exact hstop
  case snap =>
    rw [h2]
    rfl

/-! ### The drain poll of save -/

theorem AgentMoves.snaps_eq (h : AgentMoves s t) : t.snaps = s.snaps := by rw [h.host]

/-- save's DMACR write detaches the input side and leaves the output side as it was (R461 step 2). -/
theorem saveDetached_eq (h : BlockInv s) : saveDetached s = { s.gap with dmacr := s.dmacr &&& ~~~dienMask } := by
  unfold saveDetached
  rw [wr_wDmacr, dmacr_and_not_and h.dmacr_legal]

theorem saveDetached_block (h : BlockInv s) : BlockInv (saveDetached s) := h.gap.wr (.wDmacr _)

theorem savePoll_moves (h : BlockInv s) :
    AgentMoves { s.gap with dmacr := s.dmacr &&& ~~~dienMask } (savePoll s).2 :=
  saveDetached_eq h ▸ (saveDetached_block h).pollSr_moves _ _ _

theorem savePoll_block (h : BlockInv s) : BlockInv (savePoll s).2 :=
  ((saveDetached_block h).pollSr_moves _ _ _).blockInv (saveDetached_block h)

/-- A read of the poll that ends it has shown the drained block (R462). -/
theorem savePoll_drained (hp : (savePoll s).1 = true) : (savePoll s).2.drained = true :=
  (srWord_drained_iff _).1 (pollSr_match hp)

/-- Detaching the input side gives no agent a step. -/
theorem settled_detach (hs : s.settled) : ({ s with dmacr := s.dmacr &&& ~~~dienMask } : State).settled := by
  refine ⟨by rw [engineStep_dmacr, hs.1]; rfl, dmaInStep_detached _ (dien_detached s.dmacr), ?_⟩
  by_contra hne
  obtain ⟨t, ht⟩ := Option.ne_none_iff_exists'.1 hne
  have hback := dmaOutStep_dmacr (s := { s with dmacr := s.dmacr &&& ~~~dienMask }) (doen_detached s.dmacr).symm ht
  exact absurd (hs.2.2.symm.trans hback) nofun

/-- Where no agent has a step, save's poll ends as the block stands (R462). -/
theorem savePoll_settled (h : BlockInv s) (hs : s.settled) : (savePoll s).1 = s.drained
    ∧ ∃ l, (savePoll s).2 = { s with dmacr := s.dmacr &&& ~~~dienMask, sched := l } := by
  obtain ⟨l, hgap⟩ : ∃ l, s.gap = { s with sched := l } := ⟨_, h.gap_moves.settled hs⟩
  have hdet : saveDetached s = { s with dmacr := s.dmacr &&& ~~~dienMask, sched := l } := by
    rw [saveDetached_eq h, hgap]
  have hsettled : (saveDetached s).settled := by
    rw [hdet]
    exact (settled_sched _ l).2 (settled_detach hs)
  have hbudget : 0 < (saveDetached s).params.drainBudget := (saveDetached_block h).params_ok.2.2
  constructor
  · have hpoll := pollSr_settled (saveDetached_block h) hsettled 0x15 0x01 hbudget
    have hdrained : (saveDetached s).drained = s.drained := by rw [hdet]; rfl
    exact hpoll.trans (by rw [Bool.eq_iff_iff, beq_iff_eq, srWord_drained_iff, hdrained])
  · obtain ⟨l', hpoll⟩ : ∃ l', (savePoll s).2 = { saveDetached s with sched := l' } :=
      ⟨_, ((saveDetached_block h).pollSr_moves 0x15 0x01 _).settled hsettled⟩
    rw [hdet] at hpoll
    exact ⟨l', hpoll⟩

/-! ### The two ways save ends -/

section
variable (h : BlockInv s) (hcfg : s.ctl.cfg = some cfg)
  (hphase : ¬(cfg.mode.isAead = true ∧ s.ctl.tracker = some .final))
include h hcfg hphase

theorem opSave_captured (hp : (savePoll s).1 = true) : ∃ l, opSave s =
    { (savePoll s).2.captured cfg with sched := l }.finish .save (.okSnapshot ((savePoll s).2.snapshot cfg)) := by
  have hin : dien (savePoll s).2.dmacr = false := by
    rw [(savePoll_moves h).dmacr_eq]
    exact dien_detached s.dmacr
  rw [opSave_eq s hcfg, if_neg hphase, if_pos hp]
  exact saveCapture_drained (savePoll_block h) (savePoll_drained hp) hin cfg s.dmacr

theorem opSave_timedOut (hp : (savePoll s).1 = false) :
    ∃ t, opSave s = t.finish .save (.err .drainTimeout) ∧ AgentMoves s t := by
  have hblock := savePoll_block h
  have hmoves := (savePoll_moves h).trans hblock.gap_moves
  have hd : s.gap.dmacr = s.dmacr := h.gap_moves.dmacr_eq
  rw [← hd] at hmoves
  have hattached := (h.gap_moves.trans (hmoves.reattach h.gap)).gap h
  have hkept : s.dmacr &&& lowTwoMask = s.dmacr := by
    have hor := dmacr_or_and (m := 0) h.dmacr_legal rfl
    rwa [show s.dmacr ||| 0 = s.dmacr from BitVec.or_zero] at hor
  refine ⟨((savePoll s).2.gap.wr (rowWDmacr s.dmacr)).gap, ?_, ?_⟩
  · rw [opSave_eq s hcfg, if_neg hphase, if_neg (Bool.eq_false_iff.1 hp)]
  · rwa [wr_wDmacr, hkept, ← hd]

end

/-- The snapshot, over literal masks and modes (R67). -/
theorem snapshot_eq (cfg : EngineConfig) (s : State) : s.snapshot cfg = {
    id := s.ctl.nextId, cfgBits := s.cr &&& 0x000B03FC, iv := s.iv
    ctx := if cfg.mode = .aesGcm ∨ cfg.mode = .aesCcm then some { working := s.csw, final := s.csf } else none } := by
  unfold State.snapshot
  simp only [Mode.isAead_iff]
  rfl

/-- Settles O57: the poll shows a drained block, which no agent moves any more, or save writes DMACR back. -/
theorem saveCapturesOrTimesOut : Obligations.SaveCapturesOrTimesOut := by
  unfold Obligations.SaveCapturesOrTimesOut
  intro s cfg h hcfg htracker snapOf capturedFrom timedOut
  have hphase : ¬(cfg.mode.isAead = true ∧ s.ctl.tracker = some .final) := fun hf =>
    htracker ((Mode.isAead_iff _).1 hf.1) hf.2
  have hcaptured : ∀ u : State, u.cr = s.cr → u.ctl = s.ctl → u.snaps = s.snaps → (∃ l, opSave s =
      { u.captured cfg with sched := l }.finish .save (.okSnapshot (u.snapshot cfg))) → capturedFrom u := by
    intro u hcr hctl hsnaps ⟨l, hsave⟩
    have hsnap : u.snapshot cfg = snapOf u := by rw [snapshot_eq, hcr, hctl]
    rw [hsnap] at hsave
    refine ⟨_, next_congr hsave, ?_⟩
    unfold State.captured State.handOver State.withCtl
    rw [hsnap, hcr, hctl, hsnaps]
    rfl
  have hmoves := savePoll_moves h
  refine ⟨?ends, fun hd hin => ?drained, fun hd hs => ?stuck⟩
  case ends =>
    by_cases hp : (savePoll s).1 = true
    · refine .inl ⟨s.gap, (savePoll s).2, h.gap_moves, hmoves, savePoll_drained hp, hcaptured _ ?_ ?_ ?_
        (opSave_captured h hcfg hphase hp)⟩
      · exact hmoves.cr_eq.trans h.gap_moves.cr_eq
      · exact hmoves.ctl_eq.trans h.gap_moves.ctl_eq
      · exact hmoves.snaps_eq.trans h.gap_moves.snaps_eq
    · obtain ⟨t, hsave, ht⟩ := opSave_timedOut h hcfg hphase (Bool.eq_false_iff.2 hp)
      exact .inr ⟨t, next_congr hsave, ht⟩
  case drained =>
    obtain ⟨hp, l, hstate⟩ := savePoll_settled h (h.settled_of_drained hd hin)
    rw [detached_eq_self hin] at hstate
    obtain ⟨l', hsave⟩ := opSave_captured h hcfg hphase (hp.trans hd)
    rw [hstate] at hsave
    exact hcaptured s rfl rfl rfl ⟨l', hsave⟩
  case stuck =>
    obtain ⟨hp, _⟩ := savePoll_settled h hs
    obtain ⟨t, hsave, ht⟩ := opSave_timedOut h hcfg hphase (hp.trans hd)
    exact ⟨t, next_congr hsave, ht⟩

end Sys2Proof.Machine
end

section
/-! restore's register writes, exactly: the state they leave of a parked block, and the enable that opens the session (R464,
R466). -/

namespace Sys2Proof.Machine

variable {s t u : State} {cfg : EngineConfig} {snap : ContextSnapshot} {key : List WordPair} {bits : Word}

/-! ### Runs of register-file writes -/

/-- A list of rows that in a quiet block turns the register files into what `update` makes of them, with DMA in the gaps. -/
structure WritesFiles (rows : List Row) (update : RegFiles → RegFiles) : Prop where
  isRow : ∀ r ∈ rows, IsRow r
  moves : ∀ s : State, BlockInv s → s.quietNow = true → DmaMoves (s.withFiles (update s.files)) (s.wrAll rows)

theorem WritesFiles.append {rows rows' : List Row} {update update' : RegFiles → RegFiles} (h : WritesFiles rows update)
    (h' : WritesFiles rows' update') : WritesFiles (rows ++ rows') (update' ∘ update) := by
  refine ⟨List.forall_mem_append.2 ⟨h.isRow, h'.isRow⟩, fun s hs hq => ?_⟩
  have hfirst := h.moves s hs hq
  have hsecond := h'.moves (s.wrAll rows) (hs.wrAll h.isRow) (hfirst.quietNow hq)
  rw [hfirst.files_eq] at hsecond
  have hrun : s.wrAll (rows ++ rows') = (s.wrAll rows).wrAll rows' := List.foldl_append
  rw [hrun]
  exact (hfirst.withFiles _).trans hsecond

/-- One row for each element of a list, each with an update of its own. -/
theorem WritesFiles.of_each {α : Type} {row : α → Row} {update : RegFiles → α → RegFiles} {total : RegFiles → RegFiles}
    {as : List α} (hr : ∀ a, IsRow (row a))
    (hrow : ∀ a (u : State), u.busy = false → u.wr (row a) = u.withFiles (update u.files a))
    (htotal : ∀ f, as.foldl update f = total f) : WritesFiles (as.map row) total :=
  ⟨List.forall_mem_map.2 fun a _ => hr a, fun s hs hq => htotal s.files ▸ wrAll_quiet hr hrow as hs hq⟩

/-- At least one key register written (R217). -/
theorem writesFiles_key {ws : List (Fin 8 × Word)} (hne : ws.isEmpty = false) :
    WritesFiles (keyRows ws) fun f => { f with key := writeKeys ws f.key, decKeyReady := false } :=
  .of_each (update := RegFiles.writeKey) (fun p => .wKey p.1 p.2) (fun p u hb => wr_wKey u hb p.1 p.2) fun f => by
    rw [foldl_writeKey, hne, Bool.and_false]

theorem foldl_set4 (w v : Vector Word 4) : (List.finRange 4).foldl (fun v i => set4 v i (get4 w i)) v = w := by
  obtain ⟨a, b, c, d, rfl⟩ := exists_four_words w
  obtain ⟨a', b', c', d', rfl⟩ := exists_four_words v
  simp [List.finRange_succ, set4, get4]

theorem foldl_set8 (w v : Vector Word 8) : (List.finRange 8).foldl (fun v i => set8 v i (get8 w i)) v = w := by
  obtain ⟨a, b, c, d, e, f, g, h, rfl⟩ := exists_eight_words w
  obtain ⟨a', b', c', d', e', f', g', h', rfl⟩ := exists_eight_words v
  simp [List.finRange_succ, set8, get8]

/-- All four IV registers written, in order (R219). -/
theorem writesFiles_iv (w : Vector Word 4) :
    WritesFiles ((List.finRange 4).map fun i => rowWIv i (get4 w i)) fun f => { f with iv := w } :=
  .of_each (update := fun f i => { f with iv := set4 f.iv i (get4 w i) }) (fun i => .wIv i _)
    (fun i u hb => wr_wIv u hb i _) fun f =>
    (List.foldl_hom (fun v => { f with iv := v }) fun _ _ => rfl).trans (by rw [foldl_set4])

/-- All eight CSW registers written, in order (R221). -/
theorem writesFiles_csw (w : Vector Word 8) :
    WritesFiles ((List.finRange 8).map fun i => rowWCsw i (get8 w i)) fun f => { f with csw := w } :=
  .of_each (update := fun f i => { f with csw := set8 f.csw i (get8 w i) }) (fun i => .wCsw i _)
    (fun i u hb => wr_wCsw u hb i _) fun f =>
    (List.foldl_hom (fun v => { f with csw := v }) fun _ _ => rfl).trans (by rw [foldl_set8])

/-- All eight CSF registers written, in order (R223). -/
theorem writesFiles_csf (w : Vector Word 8) :
    WritesFiles ((List.finRange 8).map fun i => rowWCsf i (get8 w i)) fun f => { f with csf := w } :=
  .of_each (update := fun f i => { f with csf := set8 f.csf i (get8 w i) }) (fun i => .wCsf i _)
    (fun i u hb => wr_wCsf u hb i _) fun f =>
    (List.foldl_hom (fun v => { f with csf := v }) fun _ _ => rfl).trans (by rw [foldl_set8])

/-- The context registers after restore has written a snapshot's context words, if it has any (R464 step 3). -/
def RegFiles.withContext (ctx : Option ContextWords) (f : RegFiles) : RegFiles :=
  match ctx with
  | some c => { f with csw := c.working, csf := c.final }
  | none => f

theorem writesFiles_context (ctx : Option ContextWords) : WritesFiles (contextRows ctx) (RegFiles.withContext ctx) := by
  cases ctx with
  | none => exact ⟨nofun, fun s _ _ => DmaMoves.refl s s.sched⟩
  | some c => exact (writesFiles_csw c.working).append (writesFiles_csf c.final)

/-- The register files after restore's writes (R464 steps 2 and 3). -/
def RegFiles.restored (cfg : EngineConfig) (snap : ContextSnapshot) (key : List WordPair) (f : RegFiles) : RegFiles :=
  { f with key := writeKeys (keyWrites cfg key) f.key, iv := snap.iv, decKeyReady := false }.withContext snap.ctx

theorem keyWrites_nonempty (hlen : key.length = keyPairs cfg) : (keyWrites cfg key).isEmpty = false := by
  cases key with
  | nil => exact absurd hlen (Nat.ne_of_lt (keySpan_bounds cfg.mode cfg.keySize).1)
  | cons p ps => rfl

theorem writesFiles_restoreRows (snap : ContextSnapshot) (hlen : key.length = keyPairs cfg) :
    WritesFiles (restoreRows cfg snap key) (RegFiles.restored cfg snap key) :=
  ((writesFiles_key (keyWrites_nonempty hlen)).append (writesFiles_iv snap.iv)).append (writesFiles_context snap.ctx)

/-- The key file after restore's writes, slot by slot (R150). -/
theorem getElem_restored_key (hlen : key.length = keyPairs cfg) (file : Vector Word 8) (i : Fin 8) :
    (writeKeys (keyWrites cfg key) file)[i.val] =
      if keySlot cfg 0 ≤ i.val / 2 ∧ i.val / 2 < keySlot cfg 0 + keyPairs cfg then
        keyHalf i.val (key.getD (i.val / 2 - keySlot cfg 0) (0, 0))
      else file[i.val] := by
  rw [← hlen]
  exact getElem_writeKeys (hlen ▸ (keySpan_bounds cfg.mode cfg.keySize).2) file i

/-! ### The state after the writes -/

/-- The block and the controller as restore's writes leave them, but for the schedule (R464 steps 1 to 3). -/
def State.restored (cfg : EngineConfig) (snap : ContextSnapshot) (key : List WordPair) (s : State) : State :=
  { s.withFiles (s.files.restored cfg snap key) with
    cr := snap.cfgBits
    finalDone := if s.cr &&& phMask = snap.cfgBits &&& phMask then s.finalDone else false
    ctl := { s.ctl with prepared := false } }

theorem restoreWrites_eq (h : Parked s) (hbits : SnapWord snap.cfgBits) (hlen : key.length = keyPairs cfg) :
    ∃ l, restoreWrites cfg snap key s = { s.restored cfg snap key with sched := l } := by
  have hstored := h.of_wr_wCr hbits
  have hrun := (writesFiles_restoreRows snap hlen).moves _ hstored.block hstored.quietNow
  have heq := hrun.detached hstored.input hstored.output
  have hwr := h.wr_wCr hbits
  simp only [phaseField_eq_iff] at hwr
  rw [hwr] at heq
  unfold restoreWrites
  rw [hwr, heq]
  exact ⟨_, rfl⟩

theorem restored_parked (h : Parked s) (hbits : SnapWord snap.cfgBits) (hlen : key.length = keyPairs cfg) :
    Parked (s.restored cfg snap key) := by
  obtain ⟨hw, _⟩ := restoreWrites_parked h hbits cfg snap rfl key
  obtain ⟨l, heq⟩ := restoreWrites_eq h hbits hlen
  rw [heq] at hw
  exact hw.sched s.sched

/-- A drained block with DMA detached is parked, and DMACR is 0 (R49). -/
theorem parked_of_detached (h : BlockInv s) (hd : s.drained = true) (hdmacr : s.dmacr &&& 3 = 0) :
    Parked s ∧ s.dmacr = 0 := by
  obtain ⟨hin, hout, hb⟩ := drained_iff.1 hd
  have hzero : s.dmacr = 0 := by
    have hsplit := and_add_and s.dmacr (m := 3) (k := ~~~3) (BitVec.and_not_self _)
    have hhigh : s.dmacr &&& ~~~3 = 0 := h.dmacr_legal
    rw [hdmacr, hhigh, show (3 : Word) ||| ~~~3 = BitVec.allOnes 32 from rfl, BitVec.and_allOnes] at hsplit
    exact hsplit.symm
  refine ⟨⟨h, hin, hout, hb, ?_, ?_⟩, hzero⟩ <;> rw [hzero] <;> exact BitVec.getLsbD_zero

/-- restore up to its last register write before the key preparation or the enable (R464 steps 1 to 3). -/
theorem opRestore_written (h : Parked s) (hdmacr : s.dmacr = 0) (hid : snap.id ∈ s.ctl.outstanding) (hheld : snap ∈ s.snaps)
    (hbits : SnapWord snap.cfgBits) (hdec : decodeConfig snap.cfgBits = some cfg) (hlen : key.length = keyPairs cfg) :
    ∃ l, restoreWrites cfg snap key s.gap.gap = { s.restored cfg snap key with sched := l }
      ∧ opRestore (some snap) key s = restoreResume cfg snap { s.restored cfg snap key with sched := l } := by
  have hd : s.drained = true := drained_iff.2 ⟨h.inQ, h.outQ, h.idle⟩
  have hdm : s.gap.dmacr &&& 3 = 0 := by rw [h.block.gap_moves.dmacr_eq, hdmacr]; rfl
  obtain ⟨l, heq⟩ := restoreWrites_eq h.gap.gap hbits hlen
  obtain ⟨l', hgap⟩ : ∃ l', s.gap.gap = { s with sched := l' } := ⟨_, by rw [h.gap.gap_eq, h.gap_eq]⟩
  have hw : restoreWrites cfg snap key s.gap.gap = { s.restored cfg snap key with sched := l } := by
    rw [heq, hgap]
    rfl
  refine ⟨l, hw, ?_⟩
  rw [opRestore_valid key hid hheld hdec, restoreBody_eq, if_neg (not_not.2 hlen), if_pos ⟨hd, hdm⟩, hw]

/-- The configuration bits of a snapshot that the host holds (R67, R153). -/
theorem IdsInv.snapWord (h : IdsInv s) (hheld : snap ∈ s.snaps) : SnapWord snap.cfgBits :=
  ⟨(h.held snap hheld).2.1, (h.held snap hheld).2.2⟩

/-- The context registers restored: the snapshot's, or those that stood there (R464 step 3). -/
theorem restored_context (cfg : EngineConfig) (snap : ContextSnapshot) (key : List WordPair) (s : State) :
    ((s.restored cfg snap key).csw, (s.restored cfg snap key).csf)
      = match snap.ctx with | some c => (c.working, c.final) | none => (s.csw, s.csf) := by
  unfold State.restored RegFiles.restored RegFiles.withContext
  cases snap.ctx <;> rfl

theorem restored_iv (cfg : EngineConfig) (snap : ContextSnapshot) (key : List WordPair) (s : State) :
    (s.restored cfg snap key).iv = snap.iv := by
  unfold State.restored RegFiles.restored RegFiles.withContext
  cases snap.ctx <;> rfl

theorem restored_key (cfg : EngineConfig) (snap : ContextSnapshot) (key : List WordPair) (s : State) :
    (s.restored cfg snap key).key = writeKeys (keyWrites cfg key) s.key := by
  unfold State.restored RegFiles.restored RegFiles.withContext
  cases snap.ctx <;> rfl

theorem restored_decKeyReady (cfg : EngineConfig) (snap : ContextSnapshot) (key : List WordPair) (s : State) :
    (s.restored cfg snap key).decKeyReady = false := by
  unfold State.restored RegFiles.restored RegFiles.withContext
  cases snap.ctx <;> rfl

/-- restore's writes change the registers they name and what a configuration and a key write clear (R464, R466). -/
theorem restored_frame (cfg : EngineConfig) (snap : ContextSnapshot) (key : List WordPair) (s : State) :
    s.restored cfg snap key = { s with
      cr := snap.cfgBits, key := (s.restored cfg snap key).key, iv := snap.iv, csw := (s.restored cfg snap key).csw
      csf := (s.restored cfg snap key).csf, decKeyReady := false
      finalDone := if s.cr &&& 0x00030000 = snap.cfgBits &&& 0x00030000 then s.finalDone else false
      ctl := { s.ctl with prepared := false } } := by
  unfold State.restored RegFiles.restored RegFiles.withContext
  cases snap.ctx <;> rfl

/-- What restore's enable leaves of the controller (R464 step 4). -/
theorem restoreEnabled_eq (hlegal : crWriteLegal (snap.cfgBits ||| crypenMask) s) : restoreEnabled cfg snap s =
    { s.wr (rowWCr (snap.cfgBits ||| crypenMask)) with
      ctl := { s.ctl with
        outstanding := removeId snap.id s.ctl.outstanding, cfg := some cfg
        tracker := if cfg.mode = .aesGcm ∨ cfg.mode = .aesCcm then some (phaseOf snap.cfgBits) else none
        keyPrepPending := decide (cfg.mode = .aesKeyPrep) } } := by
  unfold restoreEnabled State.withCtl
  rw [(wr_wCr_frame hlegal).ctl]
  simp only [Mode.isAead_iff]
  rfl

/-- Settles O58: the writes to a parked block, which no agent moves, and the enable. -/
theorem restoreResumesTheSession : Obligations.RestoreResumesTheSession := by
  unfold Obligations.RestoreResumesTheSession
  intro s snap key cfg h hid hheld hdec hlen hdrained hdmacr hneeds
  have hbits := h.ids.snapWord hheld
  obtain ⟨hparked, hzero⟩ := parked_of_detached h.block hdrained hdmacr
  have hrestored := restored_parked hparked hbits hlen
  obtain ⟨l, _, hop⟩ := opRestore_written hparked hzero hid hheld hbits hdec hlen
  obtain ⟨l', hgap⟩ : ∃ l', ({ s.restored cfg snap key with sched := l } : State).gap
      = { s.restored cfg snap key with sched := l' } := ⟨_, (hrestored.sched l).gap_eq⟩
  rw [restoreResume, if_neg (by rw [hneeds]; nofun), restoreFinish_eq, hgap] at hop
  have hu := hrestored.sched l'
  have hframe := restored_frame cfg snap key s
  have hlegal := hu.block.crWriteLegal_of_quiet hu.quietNow (crLegal_setCrypen hbits.legal)
  have henabled : BlockInv (restoreEnabled cfg snap { s.restored cfg snap key with sched := l' }) :=
    (hu.block.wr (.wCr _)).of_frame rfl
  have hmoves := henabled.gap_moves
  refine ⟨{ s.restored cfg snap key with sched := l' }, _, _, ?_, hu.inQ, hu.outQ, hu.idle, rfl, hzero, rfl, rfl,
    restored_iv cfg snap key s, restored_context cfg snap key s, fun i => ?_, exec_wCr_eq_wr hlegal,
    (wr_wCr_cr hlegal).trans (crStored_of_crLegal (crLegal_setCrypen hbits.legal)), (wr_wCr_frame hlegal).faults, ?_,
    next_congr hop⟩
  · exact congrArg (fun v : State => { v with sched := l' }) hframe
  · exact (congrArg (fun k : Vector Word 8 => k[i.val]) (restored_key cfg snap key s)).trans
      (getElem_restored_key hlen s.key i)
  · rw [restoreEnabled_eq hlegal] at hmoves ⊢
    exact hmoves

end Sys2Proof.Machine
end

section
/-! The round trip: what restore reads out of a snapshot that save has taken, and the core calls of the resumed session
(R468). -/

namespace Sys2Proof.Machine

variable {s t u : State} {cfg : EngineConfig} {snap : ContextSnapshot} {key : List WordPair} {bits : Word} {m : Mode}

/-! ### An enable that starts no pass -/

/-- CRYPEN set in a parked block whose mode and phase have no pass without input (R278): nothing else changes. -/
theorem Parked.setCrypen (h : Parked s) (hmode : crMode s.cr = some m) (hkp : m ≠ .aesKeyPrep)
    (hphase : m.isAead = true → phaseOf s.cr = .header ∨ phaseOf s.cr = .payload) :
    s.wr (rowWCr (s.cr ||| crypenMask)) = { s with cr := s.cr ||| crypenMask } := by
  have hcr := crLegal_setCrypen h.block.cr_legal
  have hsame := sameConfig_setCrypen s.cr
  have hmode' : crMode (s.cr ||| crypenMask) = some m := hsame.crMode_eq.symm.trans hmode
  have hkey : keyPrepCondition (s.cr ||| crypenMask) ≠ true := by
    rw [ne_eq, keyPrepCondition_iff, hmode']
    exact fun he => hkp (Option.some.inj he.2)
  have hnophase : ∀ p, m.isAead = true → phaseOf (s.cr ||| crypenMask) = p → p = .header ∨ p = .payload :=
    fun p haead hp => by rw [← hp, ← hsame.phaseOf_eq]; exact hphase haead
  have hinit : initCondition (s.cr ||| crypenMask) ≠ true := by
    rw [ne_eq, initCondition_iff, hmode']
    rintro ⟨_, haead, hp⟩
    exact absurd (hnophase .init (Mode.isAead_of (haead.imp Option.some.inj Option.some.inj)) hp) (by decide)
  have htag : ∀ p, tagCondition p (s.cr ||| crypenMask) ≠ true := by
    intro p
    rw [ne_eq, tagCondition_iff, hmode']
    rintro ⟨_, hp, haead⟩
    exact absurd (hnophase .final (Mode.isAead_of (haead.imp (Option.some.inj ·.1) (Option.some.inj ·.1))) hp) (by decide)
  rw [wr_wCr_legal s h.block.crWriteLegal_setCrypen, crApply_idle s _ h.idle, crStored_of_crLegal hcr,
    getLsbD_flush_of_crLegal hcr, if_pos hsame.ksField_eq, if_pos hsame.phaseField_eq,
    startZeroInputPass_none (by exact h.idle) (fun he => hkey he.1) (fun he => hinit he.1) (fun he => htag _ he.1)]
  exact notifyCheck_eq_self rfl rfl rfl rfl

/-- restore's enable and its return in a parked block, where no pass starts (R464 step 4). -/
theorem restoreFinish_parked (h : Parked s) (hcr : s.cr = snap.cfgBits) (hmode : crMode snap.cfgBits = some cfg.mode)
    (hkp : cfg.mode ≠ .aesKeyPrep)
    (hphase : cfg.mode.isAead = true → phaseOf snap.cfgBits = .header ∨ phaseOf snap.cfgBits = .payload) :
    ∃ t, restoreFinish cfg snap s = t.finish .restore .ok ∧ Parked t ∧ ∃ l, t = { s with
      cr := snap.cfgBits ||| crypenMask
      ctl := { s.ctl with
        outstanding := removeId snap.id s.ctl.outstanding, cfg := some cfg
        tracker := if cfg.mode = .aesGcm ∨ cfg.mode = .aesCcm then some (phaseOf snap.cfgBits) else none
        keyPrepPending := false }
      sched := l } := by
  obtain ⟨l, hgap⟩ : ∃ l, s.gap = { s with sched := l } := ⟨_, h.gap_eq⟩
  have hgapped := h.sched l
  rw [← hcr] at hmode hphase ⊢
  have hwrite := hgapped.setCrypen hmode hkp hphase
  have hblock : BlockInv (restoreEnabled cfg snap s.gap) := (h.gap.block.wr (.wCr _)).of_frame rfl
  have hstate : restoreEnabled cfg snap s.gap = { s with
      cr := s.cr ||| crypenMask
      ctl := { s.ctl with
        outstanding := removeId snap.id s.ctl.outstanding, cfg := some cfg
        tracker := if cfg.mode = .aesGcm ∨ cfg.mode = .aesCcm then some (phaseOf s.cr) else none
        keyPrepPending := false }
      sched := l } := by
    rw [hgap, restoreEnabled_eq (hcr ▸ hgapped.block.crWriteLegal_setCrypen), ← hcr, hwrite, decide_eq_false hkp]
  have hparked : Parked (restoreEnabled cfg snap s.gap) := by
    refine ⟨hblock, ?_, ?_, ?_, ?_, ?_⟩ <;> rw [hstate]
    · exact h.inQ
    · exact h.outQ
    · exact h.idle
    · exact h.input
    · exact h.output
  refine ⟨_, restoreFinish_eq cfg snap s, hparked.gap, (restoreEnabled cfg snap s.gap).gap.sched, ?_⟩
  rw [hparked.gap_eq, hstate]

/-! ### The configuration of a snapshot -/

theorem SnapWord.and_snapMask (h : SnapWord bits) : bits &&& snapMask = bits := by
  have hsplit := and_add_and bits (m := snapMask) (k := ~~~snapMask) (BitVec.and_not_self _)
  rw [h.mask, show snapMask ||| ~~~snapMask = BitVec.allOnes 32 from rfl, BitVec.and_allOnes] at hsplit
  exact (BitVec.add_zero _).symm.trans hsplit

/-- A snapshot's configuration bits are CR with CRYPEN cleared (R67). -/
theorem clearCrypen_eq_snapMask {c : Word} (h : crLegal c) : c &&& ~~~crypenMask = c &&& snapMask := by
  rw [← (SnapWord.of_clearCrypen h).and_snapMask, BitVec.and_assoc]
  rfl

/-- What R153 decodes, field by field. -/
theorem fields_of_decodeConfig (h : decodeConfig bits = some cfg) :
    cfg.keySize = kszOf cfg.mode bits ∧ cfg.dir = crDir bits := by
  unfold decodeConfig at h
  split at h
  · cases h
  · next m _ =>
    split at h
    · next hAes =>
      split at h
      · cases h
      · next k hk =>
        cases h
        exact ⟨by rw [kszOf, if_pos hAes, hk], rfl⟩
    · next hDes =>
      cases h
      exact ⟨by rw [kszOf, if_neg hDes], rfl⟩

theorem SameConfig.symm {a b : Word} (h : SameConfig a b) : SameConfig b a := ⟨h.cfg.symm, h.phase.symm⟩

theorem SameConfig.trans {a b c : Word} (h : SameConfig a b) (k : SameConfig b c) : SameConfig a c :=
  ⟨h.cfg.trans k.cfg, h.phase.trans k.phase⟩

theorem SameConfig.kszOf_eq {a b : Word} (h : SameConfig a b) (m : Mode) : kszOf m a = kszOf m b := by
  unfold kszOf
  rw [h.ksField_eq]

/-- A session of a mode and direction without a key preparation (R154). -/
theorem not_needsKeyPrep (h : ¬((cfg.mode = .aesEcb ∨ cfg.mode = .aesCbc) ∧ cfg.dir = .dec)) : needsKeyPrep cfg = false := by
  rw [← Bool.not_eq_true]
  unfold needsKeyPrep
  rw [Bool.and_eq_true, beq_iff_eq]
  rintro ⟨hm, hd⟩
  refine h ⟨?_, hd⟩
  revert hm
  cases cfg.mode <;> decide

/-! ### Core calls -/

theorem visibleCtx_congr {ctx ctx' : Vector Word 8} (h : m.isAead = true → ctx = ctx') :
    visibleCtx m ctx = visibleCtx m ctx' := by
  unfold visibleCtx
  split
  · next haead => exact h haead
  · rfl

theorem SameConfig.visiblePhase_eq {a b : Word} (h : SameConfig a b) (m : Mode) : visiblePhase m a = visiblePhase m b := by
  unfold visiblePhase
  rw [h.phaseOf_eq]

/-- Outside CRYPEN, the unused key registers and the withheld context, the core calls read nothing (R283, log entry 6). -/
theorem coreCalls_congr {cr cr' : Word} {file file' : Vector Word 8} {csw csf csw' csf' : Vector Word 8}
    (hcr : SameConfig cr cr') (hkey : ∀ i : Fin 8, keyUsed m (kszOf m cr) i.val = true → file[i.val] = file'[i.val])
    (hctx : m.isAead = true → csw = csw' ∧ csf = csf') (iv : Vector Word 4) (din : List Word) (bo : Nat) :
    (coreBlock m cr file iv csw csf din bo).1 = (coreBlock m cr' file' iv csw' csf' din bo).1
      ∧ (coreBlock m cr file iv csw csf din bo).2.1 = (coreBlock m cr' file' iv csw' csf' din bo).2.1
      ∧ (m.isAead = true → coreBlock m cr file iv csw csf din bo = coreBlock m cr' file' iv csw' csf' din bo
          ∧ coreTag m cr file iv csw csf din = coreTag m cr' file' iv csw' csf' din) := by
  have hsize := hcr.kszOf_eq m
  have hphase := hcr.visiblePhase_eq m
  have hdir := hcr.crDir_eq
  have hvisible := visibleKey_congr hkey
  have hcsw := visibleCtx_congr (m := m) fun haead => (hctx haead).1
  have hcsf := visibleCtx_congr (m := m) fun haead => (hctx haead).2
  refine ⟨?_, ?_, fun haead => ⟨?_, ?_⟩⟩
  · dsimp only [coreBlock]
    rw [← hsize, ← hphase, ← hdir, hvisible, hcsw, hcsf]
  · dsimp only [coreBlock]
    rw [← hsize, ← hphase, ← hdir, hvisible, hcsw, hcsf]
  · obtain ⟨rfl, rfl⟩ := hctx haead
    dsimp only [coreBlock]
    rw [← hsize, ← hphase, ← hdir, hvisible]
  · obtain ⟨rfl, rfl⟩ := hctx haead
    dsimp only [coreTag]
    rw [← hsize, ← hdir, hvisible]

/-! ### save and restore together -/

/-- What save has taken where it returned a snapshot (R461). -/
structure TakenFrom (s a : State) (cfg : EngineConfig) (snap : ContextSnapshot) : Prop where
  cr : a.cr = s.cr &&& ~~~crypenMask
  bits : snap.cfgBits = s.cr &&& ~~~crypenMask
  iv : snap.iv = a.iv
  ctx : snap.ctx = if cfg.mode.isAead = true then some { working := a.csw, final := a.csf } else none

theorem takenFrom_of_save {a : State} (h : BlockInv s) (hcfg : s.ctl.cfg = some cfg)
    (hsave : opSave s = a.finish .save (.okSnapshot snap)) : TakenFrom s a cfg snap := by
  by_cases hphase : cfg.mode.isAead = true ∧ s.ctl.tracker = some .final
  · rw [opSave_eq s hcfg, if_pos hphase] at hsave
    obtain ⟨_, hres⟩ := finish_inj hsave
    cases hres
  by_cases hp : (savePoll s).1 = true
  · obtain ⟨l, hcap⟩ := opSave_captured h hcfg hphase hp
    obtain ⟨rfl, hres⟩ := finish_inj (hsave.symm.trans hcap)
    obtain rfl := OpResult.okSnapshot.inj hres
    have hcr : (savePoll s).2.cr = s.cr := (savePoll_moves h).cr_eq.trans h.gap_moves.cr_eq
    refine ⟨congrArg (· &&& ~~~crypenMask) hcr, ?_, rfl, rfl⟩
    rw [clearCrypen_eq_snapMask h.cr_legal, ← hcr]
    rfl
  · obtain ⟨t, htime, _⟩ := opSave_timedOut h hcfg hphase (Bool.eq_false_iff.2 hp)
    obtain ⟨_, hres⟩ := finish_inj (hsave.symm.trans htime)
    cases hres

/-- The configuration of a snapshot that save has taken (R153, R461). -/
theorem decodeConfig_saved {c : Word} (hc : crLegal c) (hmode : crMode c = some m) :
    ∃ cfg, decodeConfig (c &&& ~~~crypenMask) = some cfg ∧ cfg.mode = m ∧ cfg.keySize = kszOf m c ∧ cfg.dir = crDir c := by
  have hsame := sameConfig_clearCrypen c
  obtain ⟨cfg, hdec⟩ := (reservedConfig_eq_false_iff _).1 (crLegal_clearCrypen hc).2
  have hm : cfg.mode = m :=
    Option.some.inj ((crMode_of_decodeConfig hdec).symm.trans (hsame.crMode_eq.symm.trans hmode))
  obtain ⟨hks, hdir⟩ := fields_of_decodeConfig hdec
  exact ⟨cfg, hdec, hm, by rw [hks, hm, hsame.kszOf_eq], by rw [hdir, hsame.crDir_eq]⟩

/-- restore of a data session without key preparation into a parked block, where its enable starts no pass (R464). -/
theorem opRestore_resumes (h : Parked s) (hdmacr : s.dmacr = 0) (hid : snap.id ∈ s.ctl.outstanding) (hheld : snap ∈ s.snaps)
    (hbits : SnapWord snap.cfgBits) (hdec : decodeConfig snap.cfgBits = some cfg) (hlen : key.length = keyPairs cfg)
    (hneeds : needsKeyPrep cfg = false) (hkp : cfg.mode ≠ .aesKeyPrep)
    (hphase : cfg.mode.isAead = true → phaseOf snap.cfgBits = .header ∨ phaseOf snap.cfgBits = .payload) :
    ∃ t, opRestore (some snap) key s = t.finish .restore .ok ∧ Parked t
      ∧ t = { s.restored cfg snap key with cr := snap.cfgBits ||| crypenMask, ctl := t.ctl, sched := t.sched } := by
  obtain ⟨l, _, hop⟩ := opRestore_written h hdmacr hid hheld hbits hdec hlen
  rw [restoreResume, if_neg (by rw [hneeds]; nofun)] at hop
  obtain ⟨t, hfin, ht, l', hstate⟩ := restoreFinish_parked ((restored_parked h hbits hlen).sched l) rfl
    (crMode_of_decodeConfig hdec) hkp hphase
  refine ⟨t, hop.trans hfin, ht, ?_⟩
  rw [hstate]

/-- The key registers that the session uses hold the key that restore was given (R150). -/
theorem restored_key_used (hlen : key.length = keyPairs cfg) (file : Vector Word 8) (i : Fin 8)
    (hi : keyUsed cfg.mode cfg.keySize i.val = true) : (writeKeys (keyWrites cfg key) file)[i.val]
      = keyHalf i.val (key.getD (i.val / 2 - (keySpan cfg.mode cfg.keySize).1) (0, 0)) := by
  rw [getElem_restored_key hlen, if_pos ((keyUsed_iff cfg i.val).1 hi)]
  rfl

/-- Settles O60: the snapshot holds the registers as save left them, and restore writes them to a parked block. -/
theorem saveThenRestoreResumesBitForBit : Obligations.SaveThenRestoreResumesBitForBit := by
  unfold Obligations.SaveThenRestoreResumesBitForBit
  intro s a b cfg snap key m h hcfg hmode hm hsave hphase hkp hprep hb hid hheld hdrained hdmacr hlen hkey
  subst hm
  obtain ⟨hcra, hbits, hiva, hctxa⟩ := takenFrom_of_save h hcfg (Host.Outcome.next.inj hsave)
  obtain ⟨cfg', hdec, hm, hks, hdir⟩ := decodeConfig_saved h.cr_legal hmode
  obtain ⟨hparked, hzero⟩ := parked_of_detached hb hdrained hdmacr
  have hsame := sameConfig_clearCrypen s.cr
  have hpairs : key.length = keyPairs cfg' := by rw [hlen, keyPairs, hm, hks]
  have hphase' : cfg'.mode.isAead = true → phaseOf snap.cfgBits = .header ∨ phaseOf snap.cfgBits = .payload := by
    rw [hm, hbits, ← hsame.phaseOf_eq, Mode.isAead_iff]
    exact hphase
  obtain ⟨t, hop, htparked, ht⟩ := opRestore_resumes hparked hzero hid hheld (hbits ▸ .of_clearCrypen h.cr_legal)
    (hbits ▸ hdec) hpairs (not_needsKeyPrep (by rw [hm, hdir]; exact hprep)) (hm ▸ hkp) hphase'
  have hcr : t.cr = a.cr ||| crypenMask := by rw [ht, hcra, ← hbits]
  have hkeys : ∀ i : Fin 8, keyUsed cfg.mode (kszOf cfg.mode s.cr) i.val = true → t.key[i.val] = a.key[i.val] := by
    intro i hi
    have hfile : t.key = writeKeys (keyWrites cfg' key) b.key := by rw [ht]; exact restored_key cfg' snap key b
    rw [hkey i hi, hfile, restored_key_used hpairs b.key i (by rw [hm, hks]; exact hi), hm, hks]
    rfl
  have hiv : t.iv = a.iv := by rw [ht, ← hiva]; exact restored_iv cfg' snap key b
  have hctx : cfg.mode.isAead = true → t.csw = a.csw ∧ t.csf = a.csf := by
    intro haead
    have hwords := restored_context cfg' snap key b
    rw [hctxa, if_pos haead] at hwords
    rw [ht]
    exact Prod.mk.inj hwords
  have hta : SameConfig t.cr a.cr := by rw [hcr]; exact (sameConfig_setCrypen a.cr).symm
  have hts : SameConfig t.cr s.cr := hta.trans (by rw [hcra]; exact hsame.symm)
  have hdone : cfg.mode = .aesGcm ∨ cfg.mode = .aesCcm → t.finalDone = false := fun haead =>
    Bool.eq_false_iff.2 fun hdone => by
      have hfinal := (hts.phaseOf_eq.symm.trans (htparked.block.final_phase hdone))
      obtain hp | hp := hphase haead <;> exact absurd (hp.symm.trans hfinal) (by decide)
  refine ⟨t, next_congr hop, hcr, hkeys, hiv, fun haead => hctx (Mode.isAead_of haead), htparked.inQ, htparked.outQ,
    htparked.idle, hdone, fun din bo => ?_⟩
  obtain ⟨hout, hivout, hall⟩ := coreCalls_congr hta (hts.kszOf_eq cfg.mode ▸ hkeys) hctx t.iv din bo
  rw [← hiv]
  exact ⟨hout, hivout, fun haead => hall (Mode.isAead_of haead)⟩

end Sys2Proof.Machine
end

section
/-! restore's own key preparation, exactly: what it leaves of a parked block when it succeeds and when it times out (R465). -/

namespace Sys2Proof.Machine

variable {s t u : State} {v bits : Word} {m : Mode}

/-! ### What a key preparation can change -/

/-- `t` is `s` but for CR, for the pass in flight, for the prepared key, for the history and for the schedule. -/
def PrepFrame (s t : State) : Prop := t = { s with
  cr := t.cr, busy := t.busy, pass := t.pass, inflight := t.inflight, decKeyReady := t.decKeyReady, events := t.events
  sched := t.sched }

namespace PrepFrame

theorem trans (h : PrepFrame s t) (k : PrepFrame t u) : PrepFrame s u := by
  unfold PrepFrame at h k ⊢
  rw [h] at k
  exact k

/-- NotifyCheck writes the history alone (R282). -/
theorem notifyCheck (before : State) (h : PrepFrame s t) : PrepFrame s (notifyCheck before t) :=
  h.trans (by rw [notifyCheck_eq]; rfl)

/-- The start of a pass without input (R278). -/
theorem startZeroInputPass (old new : Word) (s : State) : PrepFrame s (startZeroInputPass old new s) := by
  unfold Machine.startZeroInputPass
  split_ifs <;> rfl

/-- The abort of a key preparation (R277). -/
theorem crAborted (hpass : s.pass = none ∨ s.pass = some .keyPrep) (v : Word) : PrepFrame s (crAborted s v) := by
  unfold Machine.crAborted abortPass
  obtain hp | hp := hpass <;> rw [hp] <;> split <;> rfl

/-- What a CR write stores, where the FIFOs stay empty and the phase stays (R201). -/
theorem store {c : Word} {q o : List Word} {ready done : Bool} (hq : q = s.inQ) (ho : o = s.outQ) (hd : done = s.finalDone) :
    PrepFrame s { s with cr := c, inQ := q, outQ := o, decKeyReady := ready, finalDone := done } := by
  subst hq ho hd
  rfl

/-- A parked block waits as it is (R341). -/
theorem gap (h : Parked s) : PrepFrame s s.gap := by
  obtain ⟨l, hgap⟩ : ∃ l, s.gap = { s with sched := l } := ⟨_, h.gap_eq⟩
  rw [hgap]
  rfl

/-- A CR write to empty FIFOs that keeps the phase and aborts at most a key preparation (R201, R277, R278). -/
theorem wr_wCr (hv : crWriteLegal v s) (hin : s.inQ = []) (hout : s.outQ = [])
    (hpass : s.pass = none ∨ s.pass = some .keyPrep) (hphase : s.cr &&& phMask = v &&& phMask) :
    PrepFrame s (s.wr (rowWCr v)) := by
  have habort := crAborted hpass v
  have hin' : (Machine.crAborted s v).inQ = [] := by rw [habort]; exact hin
  have hout' : (Machine.crAborted s v).outQ = [] := by rw [habort]; exact hout
  rw [wr_wCr_legal s hv, crApply_eq]
  refine notifyCheck s (habort.trans (trans (store ?_ ?_ (if_pos hphase)) (startZeroInputPass _ _ _)))
  · rw [hin', ite_self]
  · rw [hout', ite_self]

/-- While the key preparation runs the agents do nothing but end it (R274). -/
theorem of_agentMoves (h : Preparing s) (hm : AgentMoves s t) : PrepFrame s t := by
  have hend : ∀ v w : State, Preparing v → engineStep v = some w → PrepFrame v w := fun v w hv e => by
    obtain hp | ⟨hp, _⟩ := hv.run
    · rw [engineStep_keyPrep hp] at e
      obtain ⟨_, rfl⟩ := completeKeyPrep_some v e
      exact notifyCheck v rfl
    · have hb : v.busy = false := by rw [hv.block.busy_iff, hp]; rfl
      rw [engineStep_quiet v (hv.parked hb).quietNow hv.block.busy_iff] at e
      cases e
  refine (hm.induct (P := fun v => Preparing v ∧ PrepFrame s v) (fun v l hv => ⟨?sched, hv.2.trans rfl⟩)
    (fun v a hv => ?agent) ⟨h, rfl⟩).2
  case sched => exact hv.1.agentMoves (.refl v l)
  case agent =>
    refine agentStep_of_enabled (P := fun v => Preparing v ∧ PrepFrame s v) hv (fun w e => ?_) (fun w e => ?_)
      (fun w e => ?_) a
    · exact ⟨hv.1.engineStep e, hv.2.trans (hend v w hv.1 e)⟩
    · rw [dmaInStep_detached v hv.1.input] at e
      cases e
    · rw [dmaOutStep_detached v hv.1.output] at e
      cases e

end PrepFrame

/-- Between idle states a key preparation leaves less: the pass in flight is over (R61). -/
theorem PrepFrame.idle (h : PrepFrame s t) (hs : s.Idle) (ht : t.Idle) : t = { s with
    cr := t.cr, decKeyReady := t.decKeyReady, events := t.events, sched := t.sched } := by
  obtain ⟨hb, hp, hi⟩ := ht
  unfold PrepFrame at h
  rw [hb, hp, hi, ← hs.busy, ← hs.pass, ← hs.inflight] at h
  exact h

/-- A parked block is parked again once the engine is idle after a key preparation. -/
theorem Parked.of_prepFrame (h : Parked s) (hf : PrepFrame s t) (ht : BlockInv t) (hb : t.busy = false) : Parked t := by
  refine ⟨ht, ?_, ?_, hb, ?_, ?_⟩ <;> rw [hf]
  · exact h.inQ
  · exact h.outQ
  · exact h.input
  · exact h.output

/-! ### The key preparation of restore -/

theorem keyPrepBits_phase (bits : Word) : keyPrepBits bits &&& phMask = bits &&& phMask := by
  unfold keyPrepBits
  rw [or_and_eq rfl, and_not_and_eq rfl]

/-- The state in which restore starts to wait for its key preparation (R465). -/
def keyPrepStarted (bits : Word) (s : State) : State := s.gap.wr (rowWCr (keyPrepBits bits ||| crypenMask))

/-- What restore's poll for the end of its key preparation returns (R465). -/
def keyPrepPoll (bits : Word) (s : State) : Bool × State :=
  pollSr 0x10 0x00 (keyPrepStarted bits s).params.drainBudget (keyPrepStarted bits s)

theorem restoreKeyPrep_eq (bits : Word) (s : State) : restoreKeyPrep bits s =
    if (keyPrepPoll bits s).1 = true then
      (true, ((keyPrepPoll bits s).2.gap.wr (rowWCr bits)).withCtl fun c => { c with prepared := true })
    else (false, (((keyPrepPoll bits s).2.gap.wr (rowWCr (keyPrepBits bits))).gap.wr (rowWCr bits)).withCtl fun c =>
      { c with cfg := none, tracker := none }) := rfl

section
variable (h : Parked s) (hcr : s.cr = bits) (hbits : SnapWord bits) (hprep : SnapWord (keyPrepBits bits))
include h hcr hbits hprep

theorem keyPrepStarted_preparing : Preparing (keyPrepStarted bits s) ∧ PrepFrame s (keyPrepStarted bits s)
    ∧ (keyPrepStarted bits s).pass = some .keyPrep ∧ (keyPrepStarted bits s).cr = keyPrepBits bits ||| crypenMask := by
  have hcr' : s.gap.cr = bits := h.block.gap_moves.cr_eq.trans hcr
  have hoff : crypen s.gap.cr = false := hcr' ▸ hbits.off
  have hstored := crStored_of_crLegal (crLegal_setCrypen hprep.legal)
  have hsame := sameConfig_setCrypen (keyPrepBits bits)
  obtain ⟨hlegal, hstart⟩ := keyPrepStart h.gap hoff hprep (crMode_keyPrepBits bits)
  refine ⟨hstart, (PrepFrame.gap h).trans
      (.wr_wCr hlegal h.gap.inQ h.gap.outQ (.inl (h.gap.block.idle h.gap.idle).pass) ?phase),
    pass_wr_wCr_keyPrep h.gap.idle hlegal ((keyPrepCondition_iff _).2 ?edge) (keyPrepCondition_disabled hoff),
    (wr_wCr_cr hlegal).trans hstored⟩
  case phase => rw [hcr', ← hsame.phase, keyPrepBits_phase]
  case edge =>
    rw [hstored, ← hsame.crMode_eq]
    exact ⟨crypen_setCrypen _, crMode_keyPrepBits bits⟩

/-- The wait for the key preparation: the block as the agents leave it (R465). -/
theorem keyPrepPoll_preparing : Preparing (keyPrepPoll bits s).2 ∧ PrepFrame s (keyPrepPoll bits s).2
    ∧ (keyPrepPoll bits s).2.cr = keyPrepBits bits ||| crypenMask := by
  obtain ⟨hstart, hframe, _, hcr'⟩ := keyPrepStarted_preparing h hcr hbits hprep
  have hmoves : AgentMoves (keyPrepStarted bits s) (keyPrepPoll bits s).2 := hstart.block.pollSr_moves _ _ _
  exact ⟨hstart.agentMoves hmoves, hframe.trans (.of_agentMoves hstart hmoves), hmoves.cr_eq.trans hcr'⟩

/-- restore's key preparation succeeds where its poll ends it: the key is prepared, the saved configuration stands (R465). -/
theorem restoreKeyPrep_ok (hp : (keyPrepPoll bits s).1 = true) :
    ∃ t, restoreKeyPrep bits s = (true, t.withCtl fun c => { c with prepared := true }) ∧ Parked t ∧ PrepFrame s t
      ∧ t.cr = bits ∧ t.decKeyReady = true := by
  obtain ⟨hpolled, hframe, hcr'⟩ := keyPrepPoll_preparing h hcr hbits hprep
  have hb : (keyPrepPoll bits s).2.busy = false := idle_of_pollSr hp
  obtain ⟨hparked, _, hcrt, hready⟩ := hpolled.wr_wCr hb hcr' hbits
  have hgap := (hpolled.parked hb).gap
  have hlegal := hgap.block.crWriteLegal_of_quiet hgap.quietNow hbits.legal
  have hwaited := hframe.trans (.of_agentMoves hpolled hpolled.block.gap_moves)
  refine ⟨_, by rw [restoreKeyPrep_eq, if_pos hp], hparked,
    hwaited.trans (.wr_wCr hlegal hgap.inQ hgap.outQ (.inl (hgap.block.idle hgap.idle).pass) ?_), hcrt, hready⟩
  rw [hpolled.block.gap_moves.cr_eq, hcr', ← (sameConfig_setCrypen _).phase, keyPrepBits_phase]

/-- Where the poll does not end, the pass is aborted or has ended since, and the saved configuration stands (R465). -/
theorem restoreKeyPrep_timedOut (hp : (keyPrepPoll bits s).1 = false) :
    ∃ t, restoreKeyPrep bits s = (false, t.withCtl fun c => { c with cfg := none, tracker := none }) ∧ Parked t
      ∧ PrepFrame s t ∧ t.cr = bits := by
  obtain ⟨hpolled, hframe, hcr'⟩ := keyPrepPoll_preparing h hcr hbits hprep
  have hwaited := hpolled.agentMoves hpolled.block.gap_moves
  have hsame : SameConfig (keyPrepPoll bits s).2.gap.cr (keyPrepBits bits) := by
    rw [hpolled.block.gap_moves.cr_eq, hcr']
    exact (sameConfig_setCrypen _).symm
  have habort := crWriteLegal_same hprep.legal hsame
  have hpass : (keyPrepPoll bits s).2.gap.pass = none ∨ (keyPrepPoll bits s).2.gap.pass = some .keyPrep :=
    hwaited.run.symm.imp_left And.left
  have hframe' := (hframe.trans (.of_agentMoves hpolled hpolled.block.gap_moves)).trans
    (.wr_wCr habort hwaited.inQ hwaited.outQ hpass hsame.phase)
  have hblock : BlockInv ((keyPrepPoll bits s).2.gap.wr (rowWCr (keyPrepBits bits))) := hwaited.block.wr (.wCr _)
  have hcry := (wr_wCr_cr habort).trans (crStored_of_crLegal hprep.legal)
  have hstopped := h.of_prepFrame hframe' hblock (hblock.idle_of_disabled (by rw [hcry]; exact hprep.off)).busy
  have hgap := hstopped.gap
  have hlegal := hgap.block.crWriteLegal_of_quiet hgap.quietNow hbits.legal
  refine ⟨_, by rw [restoreKeyPrep_eq, if_neg (Bool.eq_false_iff.1 hp)], hgap.of_wr_wCr hbits,
    (hframe'.trans (.gap hstopped)).trans (.wr_wCr hlegal hgap.inQ hgap.outQ (.inl (hgap.block.idle hgap.idle).pass) ?_),
    (wr_wCr_cr hlegal).trans (crStored_of_crLegal hbits.legal)⟩
  rw [hstopped.block.gap_moves.cr_eq, hcry, keyPrepBits_phase]

end

end Sys2Proof.Machine
end

section
/-! The host's turns that restore uses up before its key preparation is waited for, and which of its two ends is certain
(R465; log entries 3 and 4). -/

namespace Sys2Proof.Machine

variable {s t u : State} {cfg : EngineConfig} {snap : ContextSnapshot} {key : List WordPair} {bits : Word}

/-! ### Turns of the schedule -/

/-- The next `n` turns are the host's, as far as the schedule goes. -/
def HostNext (n : Nat) (l : List Turn) : Prop := ∀ a ∈ l.take n, a = .host

theorem hostNext_nil (n : Nat) : HostNext n [] := by simp [HostNext]

theorem hostNext_replicate {n k : Nat} (h : n ≤ k) (l : List Turn) : HostNext n (List.replicate k .host ++ l) := by
  intro a ha
  rw [List.take_append_of_le_length (by simpa using h)] at ha
  exact List.eq_of_mem_replicate (List.mem_of_mem_take ha)

theorem hostNext_add_iff (n k : Nat) (l : List Turn) : HostNext (n + k) l ↔ HostNext n l ∧ HostNext k (l.drop n) := by
  unfold HostNext
  rw [List.take_add, List.forall_mem_append]

/-- Where the next turn is the host's, or no turn is left, nothing happens in a gap. -/
theorem gap_of_hostNext (h : HostNext 1 s.sched) : s.gap = { s with sched := s.sched.drop 1 } := by
  cases hl : s.sched with
  | nil => exact (gap_unscheduled hl).trans (congrArg (fun l => { s with sched := l }) hl)
  | cons a l =>
    rw [hl] at h
    obtain rfl : a = .host := h a (by simp)
    unfold State.gap
    rw [hl]
    rfl

/-- From `s` to `t` the host has taken `n` turns, if the next `n` turns were its own. -/
def TakesTurns (n : Nat) (s t : State) : Prop := HostNext n s.sched → t.sched = s.sched.drop n

namespace TakesTurns

variable {n k : Nat}

theorem trans (h : TakesTurns n s t) (h' : TakesTurns k t u) : TakesTurns (n + k) s u := by
  intro hnext
  obtain ⟨hn, hk⟩ := (hostNext_add_iff n k _).1 hnext
  rw [← h hn] at hk
  rw [h' hk, h hn, List.drop_drop]

theorem gap (h : TakesTurns n s t) : TakesTurns (n + 1) s t.gap :=
  h.trans fun hnext => by rw [gap_of_hostNext hnext]

theorem of_eq (h : TakesTurns n s t) (hu : u.sched = t.sched) : TakesTurns n s u := fun hnext => hu.trans (h hnext)

theorem wr {row : Row} (hr : IsRow row) (h : TakesTurns n s t) : TakesTurns n s (t.wr row) := by
  refine h.of_eq ?_
  unfold State.wr
  obtain ⟨k, e⟩ | ⟨t', x, _, hframe, e⟩ := transaction_frame hr 4 t <;> rw [e]
  · rfl
  · exact (hframe.notifyCheck t).sched

theorem wrAll {rows : List Row} (hr : ∀ r ∈ rows, IsRow r) (h : TakesTurns n s t) :
    TakesTurns (n + rows.length) s (t.wrAll rows) := by
  induction rows generalizing n t with
  | nil => exact h
  | cons r rows ih =>
    obtain ⟨hr, hrows⟩ := List.forall_mem_cons.1 hr
    have := ih hrows (h.gap.wr hr)
    rw [List.length_cons, show n + (rows.length + 1) = n + 1 + rows.length by omega]
    exact this

theorem start (s : State) : TakesTurns 0 s s := fun _ => rfl

end TakesTurns

theorem length_restoreRows (cfg : EngineConfig) (snap : ContextSnapshot) (key : List WordPair) :
    (restoreRows cfg snap key).length = 2 * key.length + 4 + if snap.ctx.isSome = true then 16 else 0 := by
  have hkey : ∀ (ps : List WordPair) (q : Nat), (keyWritesFrom q ps).length = 2 * ps.length := fun ps => by
    induction ps with
    | nil => exact fun _ => rfl
    | cons p ps ih => intro q; simp [keyWritesFrom, ih, Nat.mul_add]
  have hctx : (contextRows snap.ctx).length = if snap.ctx.isSome = true then 16 else 0 := by
    cases snap.ctx <;> simp [contextRows]
  simp [restoreRows, keyRows, keyWrites, hkey, hctx, Nat.add_assoc]

/-- The turns of restore's steps up to the start of its key preparation: the check, the writes, and CR twice. -/
theorem keyPrepStarted_turns (cfg : EngineConfig) (snap : ContextSnapshot) (key : List WordPair) (s : State) :
    TakesTurns (2 * key.length + 7 + if snap.ctx.isSome = true then 16 else 0) s
      (keyPrepStarted bits (restoreWrites cfg snap key s.gap.gap)) := by
  have hwrites := (((TakesTurns.start s).gap.gap.wr (.wCr snap.cfgBits)).wrAll (restoreRows_isRow cfg snap key)).of_eq
    (u := restoreWrites cfg snap key s.gap.gap) rfl
  have hall := hwrites.gap.wr (.wCr (keyPrepBits bits ||| crypenMask))
  rw [length_restoreRows] at hall
  have hcount : 2 * key.length + 7 + (if snap.ctx.isSome = true then 16 else 0)
      = 0 + 1 + 1 + (2 * key.length + 4 + if snap.ctx.isSome = true then 16 else 0) + 1 := by omega
  rw [hcount]
  exact hall

/-! ### The wait -/

theorem srWord_busy_iff (s : State) : s.srWord &&& 0x10 = 0x00 ↔ s.busy = false := by
  unfold State.srWord
  cases s.busy <;> cases s.offu <;> cases s.ofne <;> cases s.ifnf <;> cases s.ifem <;> decide

/-- One read of the wait: it ends on BUSY 0 (R158, R465). -/
theorem pollSr_busy_succ (n : Nat) (s : State) : (pollSr 0x10 0x00 (n + 1) s).1
    = if s.gap.busy = true then (pollSr 0x10 0x00 n s.gap).1 else true := by
  rw [pollSr, rd_rSr]
  dsimp only
  cases hb : s.gap.busy with
  | true =>
    rw [if_neg (by rw [beq_iff_eq, srWord_busy_iff, hb]; nofun), if_pos rfl]
  | false => rw [if_pos (beq_iff_eq.2 ((srWord_busy_iff _).2 hb)), if_neg nofun]

/-- A pass in flight stays in flight while the host alone has turns. -/
theorem pollSr_hostNext {n : Nat} (hb : s.busy = true) (hnext : HostNext n s.sched) : (pollSr 0x10 0x00 n s).1 = false := by
  induction n generalizing s with
  | zero => rfl
  | succ n ih =>
    rw [Nat.add_comm, hostNext_add_iff] at hnext
    have hgap := gap_of_hostNext hnext.1
    have hb' : s.gap.busy = true := by rw [hgap]; exact hb
    rw [pollSr_busy_succ, if_pos hb']
    exact ih hb' (by rw [hgap]; exact hnext.2)

theorem Parked.settled (h : Parked s) : s.settled :=
  h.block.settled_of_drained (drained_iff.2 ⟨h.inQ, h.outQ, h.idle⟩) h.input

/-- No turn moves a parked block. -/
theorem Parked.agentStep (h : Parked s) (a : Turn) : Parked (agentStep a s) := by
  rw [(agentStep_moves s h.block.busy_iff a).settled h.settled]
  exact h.sched _

/-- The engine's turn ends the key preparation, and the block is parked through the rest of the gap (R274). -/
theorem parked_gap_of_engineNext {rest : List Turn} (h : Preparing s) (hpass : s.pass = some .keyPrep)
    (hsched : s.sched = .engine :: rest) : Parked s.gap := by
  obtain ⟨t, hstep⟩ : ∃ t, engineStep s = some t :=
    ⟨_, (engineStep_keyPrep hpass).trans (completeKeyPrep_enabled (h.block.enabled_of_pass hpass))⟩
  have hb : t.busy = false := by
    rw [engineStep_keyPrep hpass] at hstep
    obtain ⟨_, rfl⟩ := completeKeyPrep_some s hstep
    rw [notifyCheck_busy, State.endPass_busy]
  have hgap : s.gap = runTurns rest t := by
    unfold State.gap
    rw [hsched]
    change runTurns rest ((Machine.engineStep s).getD s) = runTurns rest t
    rw [hstep]
    rfl
  rw [hgap]
  exact runTurns_induct (fun _ l hu => hu.sched l) (fun _ a hu => hu.agentStep a) rest t ((h.engineStep hstep).parked hb)

/-- The engine's first turn ends the key preparation, after the host's `j` reads (R274). -/
theorem pollSr_engineNext {n j : Nat} {rest : List Turn} (h : Preparing s) (hpass : s.pass = some .keyPrep)
    (hsched : s.sched = List.replicate j .host ++ .engine :: rest) (hj : j < n) : (pollSr 0x10 0x00 n s).1 = true := by
  induction n generalizing s j with
  | zero => exact absurd hj (Nat.not_lt_zero j)
  | succ n ih =>
    rw [pollSr_busy_succ]
    cases j with
    | zero => rw [if_neg (Bool.eq_false_iff.1 (parked_gap_of_engineNext h hpass hsched).idle)]
    | succ j =>
      have hgap := gap_of_hostNext (s := s) (by rw [hsched]; exact hostNext_replicate (Nat.succ_pos j) _)
      have hpass' : s.gap.pass = some .keyPrep := by rw [hgap]; exact hpass
      rw [if_pos (h.block.gap.busy_of_pass hpass')]
      exact ih (h.agentMoves h.block.gap_moves) hpass' (by rw [hgap, hsched]; rfl) (Nat.lt_of_succ_lt_succ hj)

/-! ### The obligation -/

/-- A session of AES-ECB or AES-CBC (R149). -/
theorem not_isAead_of_needsKeyPrep (h : needsKeyPrep cfg = true) : cfg.mode.isAead = false := by
  have hm : cfg.mode.prepBeforeDec = true := (Bool.and_eq_true_iff.1 h).1
  revert hm
  cases cfg.mode <;> decide

theorem Parked.withCtl (h : Parked s) (f : Controller → Controller) : Parked (s.withCtl f) :=
  ⟨h.block.of_frame rfl, h.inQ, h.outQ, h.idle, h.input, h.output⟩

/-- What restore has loaded where it prepares a key: the snapshot's registers and the key in its slots, and nothing else but
CR, the prepared key, the controller and the history (R464, R465). -/
def LoadedFrom (cfg : EngineConfig) (snap : ContextSnapshot) (key : List WordPair) (s t : State) : Prop :=
  t = { s with
      cr := t.cr, key := t.key, iv := snap.iv, csw := t.csw, csf := t.csf, decKeyReady := t.decKeyReady
      finalDone := if s.cr &&& 0x00030000 = snap.cfgBits &&& 0x00030000 then s.finalDone else false
      ctl := t.ctl, events := t.events, sched := t.sched }
    ∧ (t.csw, t.csf) = (match snap.ctx with | some c => (c.working, c.final) | none => (s.csw, s.csf))
    ∧ ∀ i : Fin 8, t.key[i.val] =
      if keySlot cfg 0 ≤ i.val / 2 ∧ i.val / 2 < keySlot cfg 0 + keyPairs cfg then
        (let p := key.getD (i.val / 2 - keySlot cfg 0) (0, 0); if i.val % 2 = 0 then p.1 else p.2)
      else s.key[i.val]

theorem loadedFrom_of_restored (hlen : key.length = keyPairs cfg) (ht : t = { s.restored cfg snap key with
      cr := t.cr, decKeyReady := t.decKeyReady, ctl := t.ctl, events := t.events, sched := t.sched }) :
    LoadedFrom cfg snap key s t := by
  have hframe := restored_frame cfg snap key s
  have hfile : t.key = writeKeys (keyWrites cfg key) s.key := by rw [ht]; exact restored_key cfg snap key s
  refine ⟨?rest, ?context, fun i => ?key⟩
  case rest =>
    rw [ht, hframe]
  case context =>
    rw [ht]
    exact restored_context cfg snap key s
  case key =>
    rw [hfile]
    exact getElem_restored_key hlen s.key i

section
variable {w : State} {l : List Turn} (h : Parked s) (hbits : SnapWord snap.cfgBits)
  (hdec : decodeConfig snap.cfgBits = some cfg) (hlen : key.length = keyPairs cfg) (hneeds : needsKeyPrep cfg = true)
  (hw : w = { s.restored cfg snap key with sched := l })
include h hbits hdec hlen hneeds hw

/-- restore of a decrypt session whose key preparation ends within the poll (R464, R465). -/
theorem restoreResume_prepared (hp : (keyPrepPoll snap.cfgBits w).1 = true) :
    ∃ t : State, restoreResume cfg snap w = t.finish .restore .ok ∧ LoadedFrom cfg snap key s t
      ∧ t.cr = snap.cfgBits ||| crypenMask ∧ t.decKeyReady = true
      ∧ t.ctl = { s.ctl with
          prepared := true, outstanding := removeId snap.id s.ctl.outstanding, cfg := some cfg, tracker := none
          keyPrepPending := false } := by
  obtain ⟨haes, hkp⟩ := mode_of_needsKeyPrep hneeds
  have hmode := crMode_of_decodeConfig hdec
  have haead := not_isAead_of_needsKeyPrep hneeds
  have hparked : Parked w := hw ▸ (restored_parked h hbits hlen).sched l
  obtain ⟨x, hprep, hx, hframe, hcr, hready⟩ :=
    restoreKeyPrep_ok hparked (by rw [hw]; rfl) hbits (hbits.keyPrepBits hmode haes) hp
  have hidle := hframe.idle (hparked.block.idle hparked.idle) (hx.block.idle hx.idle)
  obtain ⟨t, hfin, _, l', ht⟩ := restoreFinish_parked (hx.withCtl fun c => { c with prepared := true }) hcr hmode hkp
    fun he => absurd (haead.symm.trans he) nofun
  have hop : restoreResume cfg snap w = t.finish .restore .ok := by
    rw [restoreResume, if_pos hneeds, hprep, if_pos rfl, hfin]
  rw [if_neg fun he => absurd (haead.symm.trans (Mode.isAead_of he)) nofun, hidle, hw] at ht
  subst ht
  exact ⟨_, hop, loadedFrom_of_restored hlen rfl, rfl, hready, rfl⟩

/-- restore of a decrypt session whose key preparation does not end within the poll (R465). -/
theorem restoreResume_timedOut (hp : (keyPrepPoll snap.cfgBits w).1 = false) :
    ∃ t : State, restoreResume cfg snap w = t.finish .restore (.err .keyPrepTimeout) ∧ LoadedFrom cfg snap key s t
      ∧ t.cr = snap.cfgBits ∧ t.ctl = { s.ctl with prepared := false, cfg := none, tracker := none } := by
  obtain ⟨haes, hkp⟩ := mode_of_needsKeyPrep hneeds
  have hmode := crMode_of_decodeConfig hdec
  have hparked : Parked w := hw ▸ (restored_parked h hbits hlen).sched l
  obtain ⟨x, hprep, hx, hframe, hcr⟩ :=
    restoreKeyPrep_timedOut hparked (by rw [hw]; rfl) hbits (hbits.keyPrepBits hmode haes) hp
  have hidle := hframe.idle (hparked.block.idle hparked.idle) (hx.block.idle hx.idle)
  obtain ⟨t, l', hop, ht⟩ : ∃ t l', restoreResume cfg snap w = t.finish .restore (.err .keyPrepTimeout)
      ∧ t = { x.withCtl fun c => { c with cfg := none, tracker := none } with sched := l' } :=
    ⟨_, _, by rw [restoreResume, if_pos hneeds, hprep, if_neg nofun], (hx.withCtl _).gap_eq⟩
  rw [hidle, hw] at ht
  subst ht
  exact ⟨_, hop, loadedFrom_of_restored hlen rfl, hcr, rfl⟩

end

/-- Where no turn is the engine's before the poll's last read, the key preparation is not over by then (R465). -/
theorem keyPrepPoll_timesOut {w : State} (h : Parked w) (hcr : w.cr = bits) (hbits : SnapWord bits)
    (hprep : SnapWord (keyPrepBits bits)) (hnext : HostNext w.params.drainBudget (keyPrepStarted bits w).sched) :
    (keyPrepPoll bits w).1 = false := by
  obtain ⟨hstart, hframe, hpass, _⟩ := keyPrepStarted_preparing h hcr hbits hprep
  have hbudget : (keyPrepStarted bits w).params = w.params := by rw [hframe]
  exact pollSr_hostNext (hstart.block.busy_of_pass hpass) (hbudget ▸ hnext)

/-- Where the engine has its turn before one of the poll's reads, that read shows the key preparation over (R465). -/
theorem keyPrepPoll_ends {w : State} (h : Parked w) (hcr : w.cr = bits) (hbits : SnapWord bits)
    (hprep : SnapWord (keyPrepBits bits)) {j : Nat} {rest : List Turn}
    (hsched : (keyPrepStarted bits w).sched = List.replicate j .host ++ .engine :: rest) (hj : j < w.params.drainBudget) :
    (keyPrepPoll bits w).1 = true := by
  obtain ⟨hstart, hframe, hpass, _⟩ := keyPrepStarted_preparing h hcr hbits hprep
  have hbudget : (keyPrepStarted bits w).params = w.params := by rw [hframe]
  exact pollSr_engineNext hstart hpass hsched (hbudget ▸ hj)

/-- Settles O59: the poll's result says which way restore ends, and the schedule says the poll's result. -/
theorem restoreOfADecryptSessionPreparesTheKey : Obligations.RestoreOfADecryptSessionPreparesTheKey := by
  unfold Obligations.RestoreOfADecryptSessionPreparesTheKey
  intro s snap key cfg h hid hheld hdec hlen hdrained hdmacr hneeds loaded resumed timedOut
  have hbits := h.ids.snapWord hheld
  have hprep := hbits.keyPrepBits (crMode_of_decodeConfig hdec) (mode_of_needsKeyPrep hneeds).1
  obtain ⟨hparked, hzero⟩ := parked_of_detached h.block hdrained hdmacr
  obtain ⟨l, hw, hop⟩ := opRestore_written hparked hzero hid hheld hbits hdec hlen
  rw [← hw] at hop
  have hturns := keyPrepStarted_turns (bits := snap.cfgBits) cfg snap key s
  have hwparked : Parked (restoreWrites cfg snap key s.gap.gap) := hw ▸ (restored_parked hparked hbits hlen).sched l
  have hwcr : (restoreWrites cfg snap key s.gap.gap).cr = snap.cfgBits := by rw [hw]; rfl
  have hwparams : (restoreWrites cfg snap key s.gap.gap).params = s.params := by rw [hw]; rfl
  generalize restoreWrites cfg snap key s.gap.gap = w at *
  have hresumed : (keyPrepPoll snap.cfgBits w).1 = true → resumed := fun hp => by
    obtain ⟨t, hresume, hend⟩ := restoreResume_prepared hparked hbits hdec hlen hneeds hw hp
    exact ⟨t, next_congr (hop.trans hresume), hend⟩
  have htimedOut : (keyPrepPoll snap.cfgBits w).1 = false → timedOut := fun hp => by
    obtain ⟨t, hresume, hend⟩ := restoreResume_timedOut hparked hbits hdec hlen hneeds hw hp
    exact ⟨t, next_congr (hop.trans hresume), hend⟩
  refine ⟨?either, fun hsched => ?none, fun j rest hsched => ?engine⟩
  case either =>
    cases hp : (keyPrepPoll snap.cfgBits w).1 with
    | true => exact .inl (hresumed hp)
    | false => exact .inr (htimedOut hp)
  case none =>
    rw [TakesTurns, hsched, List.drop_nil] at hturns
    exact htimedOut (keyPrepPoll_timesOut hwparked hwcr hbits hprep (hturns (hostNext_nil _) ▸ hostNext_nil _))
  case engine =>
    rw [TakesTurns, hsched, List.replicate_add, List.append_assoc, List.drop_left' List.length_replicate] at hturns
    have hstarted := hturns (hostNext_replicate le_rfl _)
    refine ⟨fun hj => hresumed (keyPrepPoll_ends hwparked hwcr hbits hprep hstarted (hwparams ▸ hj)),
      fun hj => htimedOut (keyPrepPoll_timesOut hwparked hwcr hbits hprep ?_)⟩
    rw [hstarted, hwparams]
    exact hostNext_replicate hj _

end Sys2Proof.Machine
end

section
/-! Every register transaction completes, and records one fault and nothing else or none (R13, R501, R505). -/

namespace Sys2Proof.Machine

/-- Where a host's transaction does not raise its one fault, the row leaves the fault set alone, and so do the
notifications and the record of reads (R13, R225). -/
theorem hostTransaction_raises_or_keeps_faults {row : Row} (hr : IsRow row) (width : Nat) (s : State) :
    (∃ k, hostTransaction width row s = s.raiseFault k) ∨ (hostTransaction width row s).faults = s.faults := by
  obtain hfault | ⟨t, x, hrow, e⟩ := hostTransaction_cases width row s
  · exact .inl hfault
  · refine .inr ?_
    calc (hostTransaction width row s).faults
      _ = (notifyCheck s t).faults := by rw [e]
      _ = t.faults := notifyCheck_faults t s
      _ = s.faults := (row_frame hr hrow).faults

/-- Settles O19: each such instruction is one transaction of a row of the register map. -/
theorem aTransactionRaisesOneFaultOrNone : Obligations.ATransactionRaisesOneFaultOrNone := by
  unfold Obligations.ATransactionRaisesOneFaultOrNone
  intro i s hop
  obtain ⟨width, row, hr, htrans⟩ := exec_transaction hop
  exact ⟨hostTransaction width row s, htrans s, hostTransaction_raises_or_keeps_faults hr width s⟩

end Sys2Proof.Machine
end

section
/-! The state right after reset, what a block reset during a run leaves, and the invariants at reset (R540, R541). -/

namespace Sys2Proof.Machine

variable {s t : State}

/-! ### The masked interrupt status falls with IMSCR -/

theorem misrWord_of_imscr_zero (h : s.imscr = 0) : s.misrWord = 0 := by
  simp [State.misrWord, h]

theorem misrBit_of_imscr_zero (h : s.imscr = 0) (src : Source) : s.misrBit src = false := by
  cases src <;> simp [State.misrBit, misrWord_of_imscr_zero h]

/-- R282, R504: where both sources end up masked, each status bit that was high owes one falling edge. -/
theorem notifications_of_imscr_zero (h : t.imscr = 0) : notifications s t
    = (if s.misrBit .input = true then [.notify .input false] else [])
      ++ (if s.misrBit .output = true then [.notify .output false] else []) := by
  unfold notifications
  rw [misrBit_of_imscr_zero h, misrBit_of_imscr_zero h]
  cases s.misrBit .input <;> cases s.misrBit .output <;> rfl

/-! ### Reset -/

/-- R540, R541: a block reset as one update of the state. -/
theorem blockReset_eq (s : State) : blockReset s = { s with
    cr := 0, dmacr := 0, imscr := 0, key := Vector.replicate 8 0, iv := Vector.replicate 4 0
    csw := Vector.replicate 8 0, csf := Vector.replicate 8 0, inQ := [], outQ := [], busy := false, pass := none
    inflight := [], decKeyReady := false, finalDone := false
    events := s.events ++ ((if s.misrBit .input = true then [.notify .input false] else [])
      ++ (if s.misrBit .output = true then [.notify .output false] else []))
    ctl := { Controller.reset with nextId := s.ctl.nextId } } := by
  unfold blockReset
  rw [notifyCheck_eq, notifications_of_imscr_zero rfl]
  rfl

/-- Settles O36: the reset values read off, and a reset line is a host step that takes the block reset. -/
theorem resetLeavesTheResetState : Obligations.ResetLeavesTheResetState := by
  unfold Obligations.ResetLeavesTheResetState
  refine ⟨⟨rfl, rfl, rfl, rfl, rfl, rfl, rfl, rfl, rfl, rfl, rfl, rfl, rfl, rfl, rfl, rfl, rfl,
    srWord_reset, risrWord_reset, misrWord_of_imscr_zero rfl⟩, fun s ps hsched hprog => ?_⟩
  have hstep : step s = .next (blockReset { s with prog := ps }) := step_line_moved hsched hprog rfl
  rw [hstep, blockReset_eq, List.append_assoc]
  rfl

theorem blockInv_reset : BlockInv State.reset where
  params_ok := by decide
  cr_legal := BlockInv.crLegal_reset
  dmacr_legal := BitVec.zero_and
  imscr_legal := BitVec.zero_and
  inQ_bound := Nat.zero_le _
  outQ_bound := Nat.zero_le _
  busy_iff := rfl
  busy_enabled := nofun
  pass_legal := (passLegal_none rfl).2 rfl
  final_phase := nofun
  faults_sorted := List.Pairwise.nil

/-- No id has been given and the host holds no snapshot. -/
theorem idsInv_reset : IdsInv State.reset where
  rising := List.Pairwise.nil
  given := nofun
  held := nofun

/-- The controller has no session and claims no key preparation. -/
theorem ctlInv_reset : CtlInv State.reset where
  session := nofun
  prepared := nofun
  pending := nofun

/-- Settles O37: the block is idle with legal registers, and the controller claims nothing that could be false. -/
theorem resetMeetsTheInvariants : Obligations.ResetMeetsTheInvariants := by
  unfold Obligations.ResetMeetsTheInvariants
  exact ⟨⟨blockInv_reset, idsInv_reset⟩, ctlInv_reset⟩

end Sys2Proof.Machine
end
